-- ==== Sys2Proof/Word.lean ====
section
/-! DEFINITION. The word types of the XS7240 and their plainest arithmetic (R2, R178). -/
namespace Sys2Proof

/-- One byte of a packet, of DRAM or of flash. -/
abbrev Byte := BitVec 8
/-- A Ledger word, a reply payload word or a STATE_SEQ value (Table 0.1). -/
abbrev Word := BitVec 32

/-- A counter that stays at its all-ones value (R178). -/
def satInc {n : Nat} (c : BitVec n) : BitVec n := if c = BitVec.allOnes n then c else c + 1

/-- A number held at the largest value `n` bits can carry (R126). -/
def satBits (n k : Nat) : BitVec n := if k < 2 ^ n then BitVec.ofNat n k else BitVec.allOnes n

/-- The bits `[hi:lo]` of a number as a number. -/
def field (v hi lo : Nat) : Nat := (v >>> lo) % 2 ^ (hi + 1 - lo)

end Sys2Proof
end

