-- ==== Sys2Proof/Syntax.lean ====
section
/-! DEFINITION. The commands of the block: one constructor of `Instr` for each row of spec/opcode_table.json, in the table's
order. A host command carries its transaction `x` (R94) and its parameter fields as Tables 5.4 to 5.14 lay them out; a
class Q command also says when its work finished, `done`, in happenings before the commit, if it did before the reply (R103); the
other rows carry what reaches the device from outside (levels, readings, packets, results of NAND and DRAM operations). -/
namespace Sys2Proof

/-- The two fabric ports (R202). -/
inductive Port where
  | fa | fb
  deriving DecidableEq, Repr

/-- The part of a request packet that every opcode has (Table 4.1), and when its snapshot, its reply and its commit fall among
the happenings of the data plane (R100, R115, R627; log entry 2). -/
structure Xact where
  /-- TAG, byte 2 [7:2]. -/
  tag : BitVec 6
  /-- The expected STATE_SEQ when SEQ = 1 (R95). -/
  seq : Option Word
  /-- Byte 2 bit [0], reserved (R142). -/
  rsv : Bool
  /-- PLEN, byte 3. -/
  plen : Byte
  /-- Whether the CRC-16 the request carried is right (R98). -/
  crcOk : Bool
  /-- How many happenings lie between the cycle of the snapshot and the commit (R115). -/
  snapBack : Nat
  /-- How many of them lie after the edge that fixes the reply (R100). -/
  replyBack : Nat
  /-- Whether the commit falls in the data-plane cycle of the latest happening (R627). -/
  sameCycle : Bool
  deriving DecidableEq, Repr

/-- One complete scan of the 24 ADC inputs, with the PS_PG levels of the same moment (R469, R485). -/
structure AdcScan where
  vs : List (BitVec 12)
  vin : BitVec 12
  vstore : BitVec 12
  ichg : BitVec 12
  /-- The on-die sensor in signed degrees Celsius. -/
  die : Int
  /-- TD0 to TD3 in signed degrees Celsius; `none` an open or short circuit (R650). -/
  td : List (Option Int)
  pg : BitVec 16
  deriving DecidableEq, Repr

/-- What the fuses hold (R17, Table 12.2, R171). -/
structure Fuses where
  serial : BitVec 64
  herdAddr : BitVec 5
  dus : BitVec 256
  cert : List Byte
  deriving DecidableEq, Repr

/-- The bit errors of a delay sweep of a lane on one rank: the delay step, the beat of the 64 bursts (0 to 1023), and the XOR of
the lane's 8 pins against what the pattern has there (R344, R345). -/
abbrev Sweep := List (Nat × Nat × Byte)

/-- What training finds on one byte lane: for each rank the Vref steps over which the centred delay passes (R346), and the read and
write delay sweeps. -/
structure LaneSweep where
  dqVref : List (List Nat)
  rxVref : List (List Nat)
  read : List Sweep
  write : List Sweep
  deriving DecidableEq, Repr

/-- What the training of one point finds: the command/address and chip-select results, and the lanes (R343). -/
structure PointSweep where
  ca : List Nat
  lanes : List LaneSweep
  deriving DecidableEq, Repr

/-- A save read of a burst of the training row (R348): its rank and column, and the errors its codeword carried. -/
structure SaveRead where
  rank : Nat
  column : Nat
  errors : List (Nat × Byte)
  deriving DecidableEq, Repr

/-- A mode-register, ALERT_N or training outcome of one channel at one stage of Table 9.3. -/
inductive DramOutcome where
  /-- Stage 1: MCx_RZQ in ohms (R74). -/
  | rzq (ohms : Nat)
  /-- Stage 2: initialisation done; bit r of `drfm` is set when every device of rank r reports DRFM support (R360); `rfm` holds for
  each rank the activates after which its devices need refresh management, 0 where none does (R361). -/
  | init (ok : Bool) (drfm : BitVec 4) (rfm : List Nat)
  /-- Stage 3: bit n is set when rank n answered (Table 9.3). -/
  | ranks (present : BitVec 4)
  /-- Stage 4, point 1: the training at 3200 MT/s (R343). -/
  | trainSave (sweep : PointSweep)
  /-- Stage 4, point 0: the training at the OPERATE rate (R343). -/
  | trainOperate (sweep : PointSweep)
  /-- Stage 5: which marker each probed row read (R304): row 0 after B; row 0 after C; row 0x18000 after D, row 0, row
  0x10000; row 0x3FFFF after E. Markers A to E are 1 to 5; 0 is any other data. -/
  | probe (r1 r2 r3 r4 r5 r6 : Nat)
  /-- Stage 6: the checks of Table 9.1 and R306. -/
  | check
  deriving DecidableEq, Repr

/-- What a NAND target reports in its parameter page (R389, R390): who made it, its geometry, its read-retry settings (R394) and its
endurance fields (R391). -/
structure FlashGeom where
  manufacturer : Nat
  model : Nat
  retries : Nat
  pageBytes : Nat
  spareBytes : Nat
  pslc : Bool
  luns : Nat
  planes : Nat
  pagesPerBlock : Nat
  blockGroups : Nat
  endurance : Option (BitVec 16)
  nativeEndurance : BitVec 16
  deriving DecidableEq, Repr

/-- An image header (Table 11.5): its fields and the CRC-32 its page carries. -/
structure Header where
  hkind : Nat
  generation : Word
  seqReserve : Nat
  commitCause : BitVec 3
  flags : Byte
  granules : Word
  unsaved : Word
  tainted : Word
  rekeyBoundary : Word
  keeperPage : Word
  installedMib : Word
  bindingId : BitVec 128
  escrowCheck : Word
  keyGen : Word
  oldKeyGen : Word
  wrapDev : BitVec 576
  wrapEsc : BitVec 576
  segmentDir : List Word
  auth : BitVec 128
  crc : Word
  deriving DecidableEq, Repr

/-- A codeword of a flash read that did not come back clean: its page, its place there (0 to 15 the data codewords, 16 the metadata),
and for each attempt of R394 in turn the positions of the bits in error. -/
structure WordRead where
  page : Word
  word : Nat
  attempts : List (List Nat)
  deriving DecidableEq, Repr

/-- A sector of a flash read that is not, after correction, what was sealed: its page, its place there, metadata bytes 0 to 31 of the
page, its ciphertext and its tag (R436). -/
structure SectorRead where
  page : Word
  sector : Nat
  info : List Byte
  data : List Byte
  tag : BitVec 128
  deriving DecidableEq, Repr

/-- One half of the record area (R399): wear record, block table, histogram and snapshot mirror; whether it is complete with the right
CRC, and its place in the order of writing. -/
structure RecordSet where
  valid : Bool
  serial : Nat
  /-- The block table: program/erase counts of block groups, and the bad ones. -/
  blocks : List (Word × Nat)
  bad : List Word
  scrubHours : BitVec 16
  ratedCycles : Option (BitVec 16)
  usedPages : Nat
  lifePages : Nat
  serviceDays : BitVec 16
  peMax : BitVec 16
  peAvg : BitVec 16
  badBlocks : BitVec 16
  scrubPasses : BitVec 16
  capMf : Word
  esr : BitVec 16
  testAge : BitVec 16
  costFixed : Word
  costPj : Word
  calibrated : Bool
  hist : List Word
  tMax : Int
  mirror : List (List Word)
  deriving DecidableEq, Repr

/-- A stage of image discovery (Table 11.9) with what the flash answered. -/
inductive ImageOutcome where
  /-- Stage 1: the targets that answered, bit 4y + n (R390), and the geometry each reports. -/
  | params (present : BitVec 32) (geom : List FlashGeom)
  /-- Stage 2: the block groups marked bad, and the halves of the record area; `none` for what the model's flash holds. -/
  | records (bad : List Word) (found : Option (List RecordSet)) (reads : List WordRead)
  /-- Stage 3: the headers the rings hold; `none` for those of the model's flash. -/
  | headers (found : Option (List Header)) (reads : List WordRead)
  /-- Stage 4: the candidate is classified (R440). -/
  | classify
  /-- Stage 5: how the map segments and the keeper record page read; the map entries, `none` for the committed map of the model's
  flash. -/
  | loadMap (entries : Option (List (Nat × BitVec 64))) (reads : List WordRead) (altered : List SectorRead)
  /-- Stage 6: zeros written. -/
  | zeroFill
  /-- Stage 7: the allowance and IMAGE_INFO. -/
  | finish
  deriving DecidableEq, Repr

/-- What the rest of a command slot depends on: the channel's timing state, the codeword read and the COIN draw. -/
structure SlotInput where
  /-- Identifiers of queued requests whose next command the JESD79-5 timing constraints do not allow (R317). -/
  blocked : List Nat
  /-- Ranks whose next refresh command those constraints do not allow (R331). -/
  henBlocked : List Nat
  /-- Errors of the codeword read: symbol number and the XOR pattern of that symbol (R366). -/
  errors : List (Nat × Byte)
  /-- The bits drawn for COIN (R360). -/
  draw : BitVec 16
  deriving DecidableEq, Repr

/-- What a retraining pause finds on its lane: for each eye edge, bit k is set when the four bursts passed at the edge's delay plus
3k - 12 steps (R351), and the save reads of the bursts it writes. -/
structure PauseResult where
  rdLow : BitVec 9
  rdHigh : BitVec 9
  wrLow : BitVec 9
  wrHigh : BitVec 9
  saves : List SaveRead
  deriving DecidableEq, Repr

/-- A command of the block: a row of spec/opcode_table.json. -/
inductive Instr where
  | nop (x : Xact)
  | ident (x : Xact)
  | attest (x : Xact) (nonce : BitVec 384) (done : Option Nat)
  | fetch (x : Xact) (tagByte : Byte)
  | eventPop (x : Xact) (count : Byte)
  | ledgerRead (x : Xact) (addr : BitVec 16)
  | ledgerReadBlock (x : Xact) (addr : BitVec 16) (count : Byte)
  | ledgerWrite (x : Xact) (addr : BitVec 16) (value : Word)
  | ledgerModify (x : Xact) (addr : BitVec 16) (mask value : Word)
  | portEnWrite (x : Xact) (port : Port) (value : Word)
  | admitModeWrite (x : Xact) (value : Word)
  | taskPeriodWrite (x : Xact) (addr : BitVec 16) (value : Word)
  | modeRequestOpen (x : Xact) (target : Byte)
  | modeRequestClose (x : Xact) (target path : Byte)
  | saveArm (x : Xact)
  | saveDisarm (x : Xact)
  | saveNow (x : Xact)
  | restoreBegin (x : Xact) (param : Byte)
  | restoreAdmit (x : Xact)
  | safeholdEnter (x : Xact)
  | safeholdRelease (x : Xact)
  | regionStage (x : Xact) (region enable : Byte) (base limit : BitVec 24) (rights attr : Byte)
  | regionCommit (x : Xact)
  | epochQuery (x : Xact) (epoch : Word)
  | copySubmit (x : Xact) (engine : Byte) (rsv : BitVec 24) (desc : BitVec 256)
  | copyCancel (x : Xact) (engine rsv : Byte) (descId : BitVec 16)
  | copyResume (x : Xact) (engine : Byte)
  | channelThaw (x : Xact) (channel : Byte)
  | diagFetch (x : Xact) (channel rsv : Byte) (offset : BitVec 16) (count : Byte) (done : Option Nat)
  | trainNowPass (x : Xact) (channel : Byte)
  | trainNowFull (x : Xact) (channel kind : Byte)
  | imageInfo (x : Xact)
  | imageDiscard (x : Xact) (generation : Word)
  | checkpointFlush (x : Xact)
  | keyInstall (x : Xact) (key : BitVec 256) (check : Word)
  | keyRotateImage (x : Xact)
  | keyRotateDomain (x : Xact) (target : Byte)
  | keyStatusSummary (x : Xact)
  | keyStatusCert (x : Xact) (select : Byte)
  | bind (x : Xact) (generation : Word) (key : BitVec 256) (check : Word)
  | railLoad (x : Xact) (section_ first count : Byte) (entries : List Byte)
  | railRun (x : Xact) (sequence : Byte)
  | snapshotReadDie (x : Xact) (index : Byte) (done : Option Nat)
  | snapshotReadFlash (x : Xact) (index source : Byte) (done : Option Nat)
  | energyTestCapacitance (x : Xact)
  | energyTestCalibrate (x : Xact) (kind : Byte)
  | herdConfigJoin (x : Xact) (param policy : Byte) (tStall : BitVec 16)
  | herdConfigLeave (x : Xact) (param policy : Byte) (tStall : BitVec 16)
  | roosterLoad (x : Xact) (offset : BitVec 16) (data : List Byte)
  | roosterSend (x : Xact) (start length : BitVec 16)
  | lock (x : Xact)
  | badSync
  | transactionAbandon (badCrc : Bool)
  | resultReady (tag : BitVec 6)
  | resetNRelease
  | configDone (fuses : Fuses)
  | strapSample (strap0 strap1 : Bool)
  | resetNAssert (open_ : Bool)
  | vddAonLoss
  | pllLock (deviation : BitVec 8)
  | dramStageDone (channel : Nat) (outcome : DramOutcome)
  | imageStageDone (outcome : ImageOutcome)
  | domainFault (domain : Nat) (open_ : Bool)
  | domainGood (domain : Nat)
  | refclkLost
  | refclkBack
  | clkSwitchDone
  | hoscMeasure (deviation : BitVec 8)
  | fresetAssert (port : Port)
  | pfailNQualified
  | seqEvaluate
  | saveDrainDone
  | saveRateDone
  | saveAbandonWaitDone
  | railGood (slot : Nat)
  | railOff (slot : Nat)
  | railOffTimeout (slot : Nat)
  | railUpTimeout (slot : Nat)
  | seqStepTimeout
  | seqWaitTimeExpire
  | seqDelayExpire (slot : Nat)
  | retryGapExpire
  | railFault (slot cause : Nat)
  | adcScan (scan : AdcScan)
  | eAvailUpdate
  | chargerWindow
  | chargerRetry
  | energyTestStart
  | energyTestStepDone
  | energyTestTimeout
  | linkDetect (port : Port) (termination : Bool)
  | tb1Rx (port : Port) (symbols : BitVec 128)
  | tb2Rx (port : Port) (symbols : BitVec 128) (locked : BitVec 8)
  | eqPresetStep (port : Port) (eye : Nat) (locked : Bool)
  | linkTrainTimeout (port : Port)
  | retrainTimeout (port : Port)
  | blockLockLost (port : Port) (lane : Nat)
  | psoRx (port : Port)
  | rd64 (port : Port) (hdr : BitVec 128) (crc : Word)
  | rd256 (port : Port) (hdr : BitVec 128) (crc : Word)
  | wr64 (port : Port) (hdr : BitVec 128) (data : List Byte) (crc : Word)
  | wr256 (port : Port) (hdr : BitVec 128) (data : List Byte) (crc : Word)
  | ack (port : Port) (hdr : BitVec 128) (crc : Word)
  | nak (port : Port) (hdr : BitVec 128) (crc : Word)
  | credit (port : Port) (hdr : BitVec 128) (crc : Word)
  | packetCrcError (port : Port) (hdr : BitVec 128) (data : List Byte) (crc : Word)
  | requestAdmit (fa fb : Bool)
  | completionSend (port : Port)
  | replayTimeout (port : Port)
  | ackTimer (port : Port)
  | creditTimer (port : Port)
  | channelCommandSlot (channel : Nat) (input : SlotInput)
  | refreshTick (channel rank : Nat)
  | mr4Poll (channel : Nat) (readings : List (Byte × Bool × Bool))
  | rowIdleClose (channel rank bankGroup bank : Nat)
  | yokeWindowEnd (channel : Nat)
  | alertNParity (channel rank : Nat)
  | captureKeeperCopy (channel : Nat)
  | retrainPassStart (channel : Nat)
  | retrainPauseStart (channel : Nat)
  | retrainPauseDone (channel : Nat) (result : PauseResult)
  | entryRetrainDone (sweeps : List (List LaneSweep)) (saves : List (List SaveRead))
  | fullTrainDone (channel : Nat) (outcomes : List DramOutcome) (saves : List SaveRead)
  | copyChunkStart (engine : Nat)
  | copyChunkDone (engine : Nat) (internalFault : Bool)
  | dirtyRecount
  | trickleStart
  | flashProgramDone (op : Nat) (pass : Bool)
  | flashEraseDone (group : Word) (pass : Bool)
  | flashReadDone (op : Nat) (reads : List WordRead) (altered : List SectorRead)
  | flashTargetLost (channel target : Nat)
  | periodicCommitDue
  | recordSetTimer
  | dayRollover
  | gcRelocateStart
  | scrubPassStart
  | goatUnitStart
  | goatGranuleStart
  | sectorVerdict (granule sector : Nat) (elapsed : BitVec 16)
  | verdictTimeout (granule sector : Nat)
  | trngFault (test : Bool)
  | bindDone (entries : Option (List (Nat × BitVec 64))) (reads : List WordRead) (altered : List SectorRead)
  | herdLineFall
  | herdSettleExpire
  | herdGrabExpire
  | herdHoldExpire
  | herdArmExpire
  | herdStall
  | herdLineRise (lowLength : Nat)
  | herdLineFault
  | beaconDue
  | roosterTxStart
  | roosterTxEnd
  | roosterKeyFrame (target : BitVec 16) (key arg : Byte)
  | roosterRepeatFrame
  | roosterBadFrame
  | roosterKeyRelease
  | statusPagePending
  | roosterAlarmEval
  | roosterBlinkToggle
  | roosterIdentifyEnd
  | thermalEval
  | histMinute
  | taskDueMissed (task channel : Nat)
  | pfailNRelease
  | fresetRelease (port : Port)
  | badOpcode (x : Xact) (opcode : Byte)
  | roosterOtherKindFrame
  | jtagTck (tms tdi trstN : Bool)
  deriving DecidableEq, Repr

end Sys2Proof
end

