-- ==== Sys2Proof/Decode.lean ====
section
/-! DEFINITION. The decoder over the rows of the opcode table that give bits: none does, since the block's commands are its
host's requests, its packets and its happenings, whose fields the constructors carry. -/
namespace Sys2Proof

/-- The command a word of table bits spells; no row of the table gives bits. -/
def decodeTableWord (_nbits _w : Nat) : Option Instr := none

end Sys2Proof
end

