-- ==== Sys2Proof/Config.lean ====
section
/-! DEFINITION. What the spec leaves open: free values with no body, so that no proof can see what they are. Each is named
in a row of the assumption log. -/
namespace Sys2Proof.Config
open Sys2Proof

/-- A value that the spec does not give, for the `i`-th use (the counter `State.free`); log entry 4. -/
opaque freeValue : Nat → Nat
/-- The `i`-th draw of the entropy source that makes a key (Table 12.1); log entry 5. -/
opaque entropy : Nat → BitVec 512
/-- The draws of the entropy source for the nonce of the `i`-th signature, one for each try (Table 12.1, R461); log entry 5. -/
opaque nonce : Nat → Nat → BitVec 512
/-- Byte `i` of a programmed flash slot that the model's flash does not hold, by slot address: what an earlier power cycle or
another device wrote there (log entry 4). -/
opaque storedByte : Nat → Nat → BitVec 8
/-- Byte `i` of the keeper record page with a COPY_GEN: the spec gives what the record holds and no layout of it (log entry 41). -/
opaque keeperByte : Nat → Nat → BitVec 8
/-- The age, in DRAM clock cycles, of a captured command issued `i` slots before the freeze (Table 10.3); log entry 4. -/
opaque commandAge : Nat → Nat
/-- What an 8-bit signed temperature field shows of a temperature it cannot hold (Table 6.15, R650, R651); log entry 23. -/
opaque hotByte : Int → BitVec 8
/-- The level a TDO pin drives in a shift state of the boundary-scan port (Table 3.10); log entry 4. -/
opaque tdoLevel : Nat → Bool

end Sys2Proof.Config
end

