-- ==== Sys2Proof/Machine/State.lean ====
section
/-! DEFINITION. The state of the XS7240: every register, queue, buffer, mode and pin level the spec gives it, as plain data,
and the state after reset. One structure per unit; INVENTORY.md lists every field with its rule. -/
namespace Sys2Proof.Machine
open Sys2Proof

/-- The power states and modes (R15, Table 1.2). -/
inductive Mode where
  | unpowered | startup | operate | save | restore | safehold
  deriving DecidableEq, Repr

/-- The STARTUP steps (Table 2.2). -/
inductive SStep where
  | config | waitRails | rails | waitRefclk | dram | image | done | halted
  deriving DecidableEq, Repr

/-- An event entry (Table 4.5). -/
structure Event where
  code : BitVec 16
  param : BitVec 48
  deriving DecidableEq, Repr

/-- A reply packet by its fields (Table 4.2): the tag byte, STATUS and the payload words, after the bytes of its request and its
wait bytes (R93). -/
structure Reply where
  /-- Bytes of the transaction before the reply packet. -/
  before : Nat
  tagByte : Byte
  status : Byte
  payload : List Word
  deriving DecidableEq, Repr

/-- The work of a held class Q command (R106). -/
inductive QWork where
  | attest (nonce : BitVec 384) (words : List Word)
  | diag (channel offset count : Nat)
  | snapDie (index : Nat)
  | snapFlash (index : Nat)
  deriving DecidableEq, Repr

/-- A held-result slot (R104): the tag, the work, and the result once the work has finished. -/
structure Held where
  tag : BitVec 6
  work : QWork
  result : Option (Byte × List Word)
  deriving DecidableEq, Repr

/-- The Eulan management plane (Table 4.6, words 0x0004, 0x0005, 0x0104 to 0x0109, 0x0119, 0x00F0 to 0x00F3). -/
structure Eu where
  stateSeq : Word
  waitBytes : BitVec 6
  locked : Bool
  queue : List Event
  lost : BitVec 16
  held : List Held
  syncErrors : BitVec 16
  crcErrors : BitVec 16
  abandoned : BitVec 16
  domainFaultSeen : Bool
  overflowSeen : Bool
  refclkLostSeen : Bool
  hoscDriftSeen : Bool
  scratch : List Word
  /-- The reply packet of the latest transaction; `none` when it had no reply. -/
  reply : Option Reply
  deriving DecidableEq, Repr

/-- What the retraining of an entry to OPERATE is for (R27, R43, R585). -/
inductive EntryFor where
  | modeRequest (tag : BitVec 6)
  | fromRestore (keepPath : Bool)
  | fromSafehold
  | resume
  deriving DecidableEq, Repr

/-- Mode control (Table 2.1) and the levels it reads. -/
structure Ctl where
  mode : Mode
  step : SStep
  hostPath : Bool
  pathCause : BitVec 3
  saveArmed : Bool
  lastTrigger : BitVec 3
  resetCause : BitVec 2
  resumeCount : BitVec 16
  safeholdCauses : Word
  /-- Cause 1 was latched under R74, R75 or R309 and no command ends it (R586). -/
  causeFixed : Bool
  /-- Cause 1 stands because a retraining failed (R585). -/
  retrainFailed : Bool
  returnMode : Mode
  /-- HOST_PATH has been 1 since STARTUP (R23). -/
  pathOpened : Bool
  resetLow : Bool
  resetLatched : Bool
  /-- Milliseconds since the last COLD_START (R379, R489). -/
  uptimeMs : Nat
  pfailLow : Bool
  /-- When PFAIL_N was last seen high and the VIN monitor good together (R42). -/
  powerGoodSince : Option Nat
  /-- An entry to OPERATE whose clock switch or retraining is running (R27). -/
  entry : Option EntryFor
  /-- Its clock switch is still to come or running (R27). -/
  entrySwitching : Bool
  /-- Supply domains below their minimum (Table 3.14). -/
  domainsDown : BitVec 7
  /-- A fault of a domain other than the fabric's holds STARTUP in its step until every domain is back (R86). -/
  domainHold : Bool
  deriving DecidableEq, Repr

/-- Clock unit (R31 to R36). -/
structure Clk where
  src : Bool
  switching : Bool
  /-- The source a running switch goes to. -/
  target : Bool
  refGood : Bool
  pllLocked : Bool
  hoscDev : BitVec 8
  hoscOut : Bool
  deriving DecidableEq, Repr

/-- Straps, fuses and identity (Table 3.11, Table 5.5, R171). -/
structure Ident where
  strap0 : Bool
  strap1 : Bool
  sampled : Bool
  serial : BitVec 64
  herdAddr : BitVec 5
  dus : BitVec 256
  cert : List Byte
  deriving DecidableEq, Repr

/-- Training states (Table 7.2). -/
inductive LinkState where
  | disabled | detect | poll | config | eq | active | retrain
  deriving DecidableEq, Repr

/-- A request in a receive buffer or admitted (Table 7.5). -/
structure Req where
  kind : BitVec 4
  stream : BitVec 3
  tag : Byte
  hint : BitVec 2
  addr : BitVec 34
  mask : BitVec 64
  data : List Byte
  /-- GUARD or a demand has made it wait (R230, R574). -/
  waiting : Bool
  deriving DecidableEq, Repr

/-- An admitted request until its completion is decided, in source order (R238). -/
structure FReq where
  id : Nat
  req : Req
  /-- Bursts whose column command is still to come, and bursts done. -/
  left : Nat
  /-- The admitting epoch (R265). -/
  epoch : Word
  domain : BitVec 3
  hint : BitVec 2
  /-- The completion code once decided (Table 7.8), and the data read so far. -/
  code : Option (BitVec 4)
  data : List Byte
  /-- Its completion will be discarded (R40, R208). -/
  drop : Bool
  /-- Its granule was poisoned at its first column command (R457), or a codeword of it was uncorrectable in SAVE (R376). -/
  poisoned : Bool
  /-- Its first column command has been issued. -/
  begun : Bool
  deriving DecidableEq, Repr

/-- A packet: header and payload (R214). -/
structure Packet where
  hdr : BitVec 128
  data : List Byte
  deriving DecidableEq, Repr

/-- What a port sends: an ordered set, with its block for each lane that carries one, lane 0 first (R204, R207), or a packet with
its CRC-32 (R231). -/
inductive Wire where
  | ordered (blocks : List (BitVec 128))
  | packet (k : Packet) (crc : Word)
  deriving DecidableEq, Repr

/-- One fabric port (Tables 6.5, 7.2, 7.10). -/
structure Fab where
  enabled : Bool
  maxWidth : BitVec 4
  maxRate : BitVec 2
  /-- MAX_WIDTH and MAX_RATE as they stood at the training from DETECT in force (R213). -/
  useWidth : BitVec 4
  useRate : BitVec 2
  link : LinkState
  rate : BitVec 2
  width : BitVec 4
  trainCount : BitVec 16
  replays : BitVec 16
  naksSent : BitVec 16
  crcErrors : BitVec 16
  retrains : BitVec 16
  cplRegionFault : BitVec 16
  cplFrozen : BitVec 16
  cplPoisoned : BitVec 16
  cplUnmapped : BitVec 16
  cplNotAdmitted : BitVec 16
  reads : Word
  writes : Word
  fresetLow : Bool
  txSeq : BitVec 12
  rxSeq : BitVec 12
  txLimit : BitVec 16
  txConsumed : BitVec 16
  rxLimit : BitVec 16
  rxConsumed : BitVec 16
  lastCreditSent : BitVec 16
  rx : List Req
  inflight : List FReq
  /-- Completions decided and not sent, in source order (R229). -/
  cq : List Packet
  replay : List (BitVec 12 × Packet)
  /-- What the replay in progress has still to resend, in SEQ order (R236, R251). -/
  resend : List (BitVec 12 × Packet)
  nakSent : Bool
  skipToPso : Bool
  episodes : Nat
  ackOwed : Nat
  /-- Training exchange counters (R206, R208). -/
  tb1Good : Nat
  tb2Good : Nat
  tb2Last : BitVec 128
  tb2Sent : Nat
  hostRates : BitVec 3
  hostWidth : BitVec 4
  hostCredits : BitVec 16
  hostResume : Bool
  hostRxSeq : BitVec 12
  laneLock : BitVec 8
  /-- The presets tried in EQ, the widest eye so far and its preset; 11 is none (R211). -/
  presetStep : Nat
  bestEye : Nat
  bestPreset : Nat
  /-- The preset kept for the rate the link trains or runs at; 11 is none. -/
  keptPreset : Nat
  txPreset : BitVec 4
  /-- The next rate an EQ tries; rates up to it have been tried (R206). -/
  eqRate : BitVec 2
  eqFailed : Bool
  /-- The POLL came from RETRAIN, and link-layer state is held (R208, R212). -/
  afterRetrain : Bool
  holdsState : Bool
  /-- The newest 32 packets and ordered sets the port sent, oldest first (log entry 3). -/
  sent : List Wire
  deriving DecidableEq, Repr

/-- Region attributes (Table 5.9). -/
structure RegAttr where
  enable : Bool
  rights : Byte
  saveClass : BitVec 2
  domain : BitVec 3
  hint : BitVec 2
  base : BitVec 24
  limit : BitVec 24
  deriving DecidableEq, Repr

/-- One region block (Table 6.6). -/
structure Region where
  cur : RegAttr
  commitEpoch : Word
  staged : Option RegAttr
  faults : BitVec 16
  deriving DecidableEq, Repr

/-- Regions, epoch and the latest region fault (Table 6.7). -/
structure Reg where
  regions : List Region
  epoch : Word
  /-- The epoch last reported drained (R267). -/
  reported : Word
  faultAddr : BitVec 40
  faultOrigin : BitVec 2
  faultId : BitVec 4
  /-- The attributes the dirty counts are classed by until the next recount (R408). -/
  countBy : List RegAttr
  deriving DecidableEq, Repr

/-- A run of burst accesses by an engine, Mule or Goat: the bursts still to enter a channel queue, those queued, and the
bytes read (R276, R277). Every burst is named by its index, device address divided by 64. -/
structure Job where
  reads : List Nat
  writes : List Nat
  queued : Nat
  buffer : List Host.Cell
  /-- A burst met a frozen channel or an uncorrectable codeword (R281, R548). -/
  stopped : Bool
  tainted : Bool
  deriving DecidableEq, Repr

/-- A copy descriptor with its DESC_ID (Table 8.3). -/
structure Desc where
  id : BitVec 16
  bits : BitVec 256
  deriving DecidableEq, Repr

/-- Copy-engine states (Table 8.5). -/
inductive CeState where
  | idle | running | stopped | resumable | cancelling
  deriving DecidableEq, Repr

/-- A checkpoint record (R289). -/
structure Checkpoint where
  st : CeState
  cause : BitVec 4
  run : Option Desc
  runChunk : BitVec 24
  stopChunk : BitVec 24
  queue : List Desc
  nextId : BitVec 16
  /-- Whether the record passes its integrity check (R294). -/
  good : Bool
  deriving DecidableEq, Repr

/-- One copy engine (Table 6.7). -/
structure Ce where
  st : CeState
  cause : BitVec 4
  run : Option Desc
  runChunk : BitVec 24
  stopChunk : BitVec 24
  lastDone : BitVec 16
  descDone : Word
  chunksDone : Word
  queue : List Desc
  nextId : BitVec 16
  /-- The chunk in progress and the epoch it started under (R266). -/
  job : Option Job
  jobEpoch : Word
  /-- The region attributes of that epoch (R265). -/
  jobAttrs : List RegAttr
  /-- The DESC_ID the COPY_CANCEL in force named (R286). -/
  cancelId : BitVec 16
  /-- Bits: preempt at the end of the chunk by SAVE or SAFEHOLD, with its stop cause (R288). -/
  preempt : Option (BitVec 4)
  checkpoint : Option Checkpoint
  deriving DecidableEq, Repr

/-- Who made a burst access (Table 10.3). -/
inductive Owner where
  | fabric (port : Port) (id : Nat)
  | engine (n : Nat)
  | mule (copy : Nat)
  | restore (granule : Nat)
  | goat
  deriving DecidableEq, Repr

/-- What a queue entry does to its burst. -/
inductive Access where
  | read
  /-- Write the bytes of `mask` with `data` (from byte 0), after a merge read when the mask is partial (R319). -/
  | write (mask : BitVec 64) (data : List Byte)
  /-- Read, and write back when a correction was made (R371). -/
  | scrub
  /-- Read under the old key and write under the new (R448). -/
  | rekey
  deriving DecidableEq, Repr

/-- An entry of a channel queue (R315). -/
structure QEntry where
  id : Nat
  owner : Owner
  /-- The requester by the numbers of Table 10.3. -/
  who : Nat
  burst : Nat
  access : Access
  domain : BitVec 3
  keepOpen : Bool
  deriving DecidableEq, Repr

/-- A row open in a bank (R322): rank, bank group and bank, the row, and the hits in a row. -/
structure OpenRow where
  rank : Nat
  bg : Nat
  bank : Nat
  row : Nat
  run : Nat
  deriving DecidableEq, Repr

/-- A retraining pass (R350): its next lane, whether it is a pause now, and what started it. -/
structure Pass where
  lane : Nat
  inPause : Bool
  /-- 0 periodic, 1 temperature, 2 TRAIN_NOW. -/
  cause : Nat
  /-- A lane of it was below the minimum, or lost its training (R352, R357). -/
  low : Bool
  lost : Bool
  deriving DecidableEq, Repr

/-- The eye edges of a lane at point 0: the first and last steps that pass in each direction (R344, R351). -/
structure LaneEdges where
  rdLow : Nat
  rdHigh : Nat
  wrLow : Nat
  wrHigh : Nat
  deriving DecidableEq, Repr

/-- One DRAM channel (Tables 6.8, 9.9, 10.5). -/
structure Mc where
  used : Bool
  offline : Bool
  trained : Bool
  frozen : Bool
  freezeKind : Nat
  trainedSinceFreeze : Bool
  captureValid : Bool
  refresh2x : Bool
  retraining : Bool
  ranks : BitVec 2
  density : BitVec 2
  mr4 : Byte
  mr4Clean : Nat
  overTemp : Bool
  yokeThresh : BitVec 16
  yokeEn : Bool
  coinK : BitVec 4
  coinEn : Bool
  hintPolicy : Bool
  retrainPeriod : Byte
  tempTrigEn : Bool
  retrainEn : Bool
  corrected : Word
  uncorrectable : BitVec 16
  freezes : BitVec 16
  rfmIssued : Word
  yokeHolds : Word
  tempRetrains : BitVec 16
  retrains : BitVec 16
  /-- The ten training words at +0x10 + 2L + p. -/
  train : List Word
  /-- Command/address and chip-select results of points 0 and 1, and the Vref values (DRAM DQ, receiver) of lane L at point p, at
  place 2L + p (R346). -/
  ca : List (List Nat)
  vref : List (Nat × Nat)
  /-- The eye edges of the lanes at point 0, and the eyes each lane had on each rank at the last full training (R351). -/
  edges : List LaneEdges
  rankEyes : List (List Nat)
  /-- Stage of Table 9.3 next to run (0 before the DRAM step, 7 after it). -/
  stage : Nat
  /-- Point 1 has been trained at stage 4 (R343), and stage 5 has been completed (R306). -/
  point1Done : Bool
  probed : Bool
  /-- Ranks of which every device supports DRFM (R360), and each rank's activates before its devices need refresh management (R361). -/
  drfm : BitVec 4
  rfm : List Nat
  /-- Activates counted toward that need: rank, bank group, bank, count. -/
  raa : List (Nat × Nat × Nat × Nat)
  queue : List QEntry
  nextId : Nat
  openRows : List OpenRow
  /-- The round-robin pointer (R321): true names FB. -/
  pointerFb : Bool
  /-- Owed refresh units of each rank, those of them whose due time has passed (R332), and the bank indices refreshed in the
  current unit (R329, R330). -/
  owed : List Nat
  overdue : List Nat
  bankDone : List (BitVec 4)
  /-- A rank is in a forced refresh (R331). -/
  forced : List Bool
  selfRefresh : Bool
  /-- Running at 3200 MT/s on point 1. -/
  onPoint1 : Bool
  yokeOn : Bool
  yokeThreshNow : BitVec 16
  /-- ACT counts: requester, rank, bank group, bank, count (R362). -/
  yokeCounts : List (Nat × Nat × Nat × Nat × Nat)
  yokeHeld : List (Nat × Nat × Nat × Nat)
  /-- The last 256 burst slots: 0 other, 1 trickle, 2 Goat (R325). -/
  window : List Nat
  /-- Refresh-management commands owed before the next ACT to a bank (R360): rank, bank group, bank. -/
  coinOwed : List (Nat × Nat × Nat)
  pass : Option Pass
  passTemp : Int
  /-- The readings of an MR4 poll that waits for its slot: value, 2× or more, over-temperature, by rank (R341). -/
  mr4Wait : Option (List (Byte × Bool × Bool))
  /-- Full training under TRAIN_NOW runs (R358, R359). -/
  fullTrain : Bool
  /-- A TRAIN_NOW pass that waits for the pass in progress (R357). -/
  passAsked : Bool
  /-- A retraining of an entry to OPERATE left a lane of it below the minimum (R356, R586). -/
  untrained : Bool
  capture : List Word
  captureToCopy : Bool
  keeperCapture : List Word
  /-- The newest 64 commands: the first word of each record and its requester and column word (Table 10.3). -/
  commands : List (Word × Word)
  deriving DecidableEq, Repr

/-- The DRAM configuration words (0x0008 to 0x000C). -/
structure Dcfg where
  chUsed : BitVec 4
  ways : BitVec 2
  grain : BitVec 3
  opRate : BitVec 2
  opReduced : Bool
  installedMib : Word
  visibleMib : Word
  keeperMib : Word
  granules : Word
  /-- The lowest-numbered used channel that completed stage 5, and its ranks and density, which the mapping uses (R306, R313). -/
  reference : Option Nat
  refRanks : BitVec 2
  refDensity : BitVec 2
  deriving DecidableEq, Repr

/-- A GMAP entry (Table 11.4). -/
structure GEntry where
  st : BitVec 2
  taint : Bool
  dirty : Bool
  stale : Bool
  genLo : BitVec 24
  slot : Word
  deriving DecidableEq, Repr

/-- A page of map segment or keeper record in a slot of the log: KIND, INDEX, COPY_GEN and the non-zero plaintext bytes (Table 11.3,
R437). -/
structure FPage where
  kind : BitVec 4
  index : Nat
  copyGen : Nat
  data : List Host.Cell
  deriving DecidableEq, Repr

/-- A programmed slot of the log: its address, and for a granule copy KIND, INDEX, COPY_GEN, KEY_GEN, TAINT, the non-zero plaintext
bytes and the K_SEAL it was sealed under, which fix every byte of its pages (Tables 11.2 and 11.3, R436, R437). A slot of map segments
and the keeper record holds up to four pages of their own. -/
structure FSlot where
  addr : Word
  kind : BitVec 4
  index : Nat
  copyGen : Nat
  keyGen : Word
  taint : Bool
  data : List Host.Cell
  parts : List FPage
  key : BitVec 256
  deriving DecidableEq, Repr

/-- A header ring (R398): the next page to be written and the headers its pages hold, oldest first. -/
structure Ring where
  next : Nat
  pages : List (Nat × Header)
  deriving DecidableEq, Repr

/-- A live slot that is to be relocated (R417): for garbage collection, or for a scrub or a retirement; and whether it has been read. -/
structure Reloc where
  slot : Word
  gc : Bool
  read : Bool
  deriving DecidableEq, Repr

/-- A granule copy of Mule or Goat in flight (R409). -/
structure Copy where
  id : Nat
  granule : Nat
  slot : Word
  copyGen : Nat
  taint : Bool
  /-- 0 trickle, 1 SAVE, 2 flush, 3 Goat re-seal, 4 Goat copy from DRAM, 5 relocation. -/
  purpose : Nat
  /-- DRAM reads under way; `none` once programming. -/
  job : Option Job
  /-- Mule has taken the granule (R409). -/
  took : Bool
  /-- The plaintext once read, and the entry's slot a re-seal read (R450). -/
  data : List Host.Cell
  fromSlot : Word
  /-- The image-key generation it is sealed under, once its program has begun (R433). -/
  keyGen : Word
  deriving DecidableEq, Repr

/-- Other flash operations in flight. -/
inductive FlashOp where
  | marker (primary : Bool) (h : Header)
  | reserve (primary : Bool) (h : Header)
  | header (primary : Bool) (h : Header)
  /-- A slot of map segments and the keeper page of the commit in progress. -/
  | mapSlot (slot : Word) (pages : List FPage)
  | records (r : RecordSet)
  | restoreRead (granule : Nat) (target : Nat)
  | scrubRead (slot : Word)
  /-- The read of a slot to be relocated (R417). -/
  | relocRead (slot : Word)
  /-- Goat's read of the copy that a granule's working entry names (R450). -/
  | goatRead (granule : Nat) (slot : Word)
  deriving DecidableEq, Repr

/-- A commit in progress (R403): its cause code, how far it has come (0 waiting for programs, 1 map and keeper pages,
2 primary header, 3 secondary header, 4 a primary header that has passed in SAFEHOLD, whose commit waits), and the map, directory and keeper record being committed. -/
structure Commit where
  cause : Nat
  phase : Nat
  map : List (Nat × GEntry)
  dir : List Word
  keeperPage : Word
  ckpts : List (Option Checkpoint)
  caps : List (List Word)
  /-- The header that passed in SAFEHOLD. -/
  passed : Option Header
  deriving DecidableEq, Repr

/-- A flash scrub pass (R419). -/
structure Scrub where
  left : List Word
  relocated : Nat
  deriving DecidableEq, Repr

/-- The image store (Tables 6.9, 11.4, 11.12, 5.12). -/
structure Img where
  usable : Bool
  deferred : Bool
  state : Byte
  flags : Byte
  generation : Word
  granules : Word
  unsaved : Word
  tainted : Word
  rekeyBoundary : Word
  commitCause : BitVec 3
  escrowCheck : Word
  targetMap : BitVec 32
  trickleEn : Bool
  tricklePeriod : BitVec 16
  trickleShare : BitVec 6
  gcRuns : BitVec 16
  gcVictim : Option Word
  relocs : List Reloc
  /-- Trickle programs since the last relocation or Goat program, up to three (R417). -/
  shareCredit : Nat
  ratedCycles : BitVec 16
  /-- The value the host has written, carried in the record set (R391). -/
  ratedWritten : Option (BitVec 16)
  ratedInUse : BitVec 16
  allowDayMib : Word
  usedPages : Nat
  lifePages : Nat
  peMax : BitVec 16
  peAvg : BitVec 16
  /-- Program/erase counts of the block groups (R399). -/
  blockCycles : List (Word × Nat)
  serviceDays : BitVec 16
  scrubPasses : BitVec 16
  scrubHours : BitVec 16
  badBlocks : BitVec 16
  retired : List Word
  /-- The system block groups, eight of the primary copy and eight of the secondary (R397), and the erases outstanding. -/
  sys : List Word
  erases : List Word
  lost : BitVec 32
  commits : Word
  trickled : Word
  bchCorrected : Word
  bchUncorrectable : BitVec 16
  geom : FlashGeom
  /-- Working and committed granule maps; an unlisted granule is ZERO and clean. -/
  gmap : List (Nat × GEntry)
  committed : List (Nat × GEntry)
  slots : List FSlot
  primary : Ring
  secondary : Ring
  /-- The two halves of the record area; `none` is a half never written or being written. -/
  records : List (Option RecordSet)
  /-- The keeper record the committed header names: checkpoints and captures (R402). -/
  keeperCkpt : List (Option Checkpoint)
  keeperCap : List (List Word)
  /-- The page addresses of the newest written map segments, in segment order (R402, R417). -/
  dir : List Word
  copyGen : Nat
  seqReserve : Nat
  /-- A header has been written since the last entry to STARTUP (R404). -/
  wroteHeader : Bool
  candidate : Option Header
  stage : Nat
  /-- The classification of stage 4, until stage 7 reports it. -/
  cls : Byte
  /-- Tokens of the trickle bucket, in 1/86 400 000 of a granule (R415). -/
  tokens : Nat
  throttled : Bool
  wearLimited : Bool
  cursors : List Nat
  batch : List Nat
  trickleRun : Bool
  copies : List Copy
  ops : List (Nat × FlashOp)
  nextOp : Nat
  commit : Option Commit
  /-- Causes of commits asked for and not begun. -/
  commitAsked : List Nat
  flush : Option (List Nat)
  changed : Bool
  lastCommitMs : Nat
  recordDue : Bool
  scrub : Option Scrub
  lastScrubMs : Nat
  deriving DecidableEq, Repr

/-- A poisoned granule, with its coverage map when it holds a table entry (R458). -/
structure Poison where
  granule : Nat
  cover : Option (BitVec 1024)
  deriving DecidableEq, Repr

/-- Goat's current re-key (R447 to R451): the target, and for a DRAM domain the unit's job and bursts done. -/
structure Goat where
  target : Nat
  job : Option Job
  doneBursts : List Nat
  /-- A commit of the final boundary has been asked for (R451). -/
  finishing : Bool
  deriving DecidableEq, Repr

/-- Cipher, keys and poisoning (Table 6.10, Table 12.2). -/
structure Cip where
  escrow : Option (BitVec 256)
  escrowCheck : Word
  bound : Bool
  imkGen : Word
  imk : BitVec 256
  imkOld : BitVec 256
  oldGen : Word
  rekeyActive : Byte
  keyed : BitVec 7
  /-- The entropy draw that made each domain's key, and the previous one during a re-key; 0 is no key. -/
  domKey : List Nat
  domOld : List Nat
  boundary : List (BitVec 24)
  imageBoundary : Word
  verifyFirst : Bool
  lateAuthFails : BitVec 16
  poison : List Poison
  alarmWorst : BitVec 16
  rekeyShare : Byte
  trngFault : Bool
  goatQueue : List Nat
  goat : Option Goat
  noEscrowSent : Bool
  /-- The highest IMAGE_KEY_GEN of any header with a correct CRC (R434). -/
  headerGen : Word
  /-- BIND work under way: its tag and key, in acceptance order (R445). -/
  binding : List (BitVec 6 × BitVec 256)
  /-- The XTS key each burst was last written under: burst, domain, key draw (R441). -/
  burstKeys : List (Nat × Nat)
  deriving DecidableEq, Repr

/-- RAIL_STATE (Table 13.2). -/
inductive RailState where
  | off | enabling | up | disabling | fault | excluded | bleeding | unused
  deriving DecidableEq, Repr

/-- One rail slot (Tables 6.11, 13.1). -/
structure Slot where
  entry : BitVec 64
  st : RailState
  pg : Bool
  vs : BitVec 12
  enabled : Bool
  faultCount : BitVec 4
  deriving DecidableEq, Repr

/-- SEQ_STATE (Table 13.4). -/
inductive SeqState where
  | empty | loaded | running | retryDown | retryWait | up | shutdown | halted
  deriving DecidableEq, Repr

/-- A pending sequencer input (R479), in priority order. -/
inductive SeqInput where
  | railFault (slot : Nat)
  | pfail (vin : Bool)
  | herdStep
  /-- Kinds: 0 step timeout, 1 WAIT_TIME, 2 DELAY, 3 UP_TIMEOUT, 4 OFF_TIMEOUT, 5 RETRY_GAP; 9 one whose step or delay has
  been left (R628). Slot 16 where there is none, so that it merges with no slot's timer (R479). -/
  | timer (kind slot : Nat)
  | powerGood (slot : Nat) (off : Bool)
  deriving DecidableEq, Repr

/-- What follows a sequenced shutdown (R483). -/
inductive AfterShut where
  | waitRails | retry | halt (slot : Nat) | excludedRun (slot : Nat)
  deriving DecidableEq, Repr

/-- A sequenced shutdown in progress (R482). -/
structure Shut where
  left : List Nat
  timeouts : Nat
  after : AfterShut
  deriving DecidableEq, Repr

/-- The rail sequencer (Table 6.11, R468 to R490). -/
structure Rail where
  slots : List Slot
  header : Word
  deps : List (BitVec 64)
  program : List Word
  st : SeqState
  pc : Nat
  /-- What the current step waits for (R477): 0 nothing, 3 time, 4 good, 5 below, 8 herd, 15 END; 16 an attempt that is due. -/
  waiting : Nat
  steps : Nat
  retries : BitVec 3
  attempt : Nat
  /-- The run with slots EXCLUDED (R484). -/
  excludedRun : Bool
  faultValid : Bool
  faultRail : BitVec 4
  coalesced : BitVec 16
  /-- Slots the last attempt enabled, oldest first, one group per cycle (R482). -/
  order : List (List Nat)
  /-- Slots whose dependency DELAY is running (R476). -/
  delaying : List Nat
  pending : List SeqInput
  shut : Option Shut
  /-- A shutdown whose flash status wait is running (R556). -/
  abandonWait : Bool
  snaps : List (List Word)
  snapTotal : BitVec 16
  lastCause : Nat
  lastSlot : Nat
  lastSnapMs : Nat
  vinFired : Bool
  vinBelow : Nat
  deriving DecidableEq, Repr

/-- The ADC codes (R469). -/
structure Adc where
  vin : BitVec 12
  vstore : BitVec 12
  ichg : BitVec 12
  /-- The last 100 values of V_oc in µV (R497). -/
  vocs : List Nat
  deriving DecidableEq, Repr

/-- CHARGER_STATE (R492). -/
inductive Charger where
  | off | charging | full | bleed | test | fault | unconfigured
  deriving DecidableEq, Repr

/-- A capacitance and ESR test (R494): the step, and whether it is an instance of task 3. -/
structure ETest where
  /-- 1 lowering the store, 2 charging, 3 after the CHG_EN falling edge. -/
  step : Nat
  scheduled : Bool
  /-- Store current summed over the scans of step 2, and over those between the two voltage points, in 0.5 mA; the scans of step 2. -/
  sum : Int
  window : Int
  scans : Nat
  /-- The terminal voltage (µV) and the store current (0.5 mA) of the scan before the edge. -/
  edgeV : Nat
  edgeI : Int
  deriving DecidableEq, Repr

/-- The energy manager (Table 6.14). -/
structure Egy where
  eAvail : Word
  capMf : Word
  testAgeMs : Nat
  esr : BitVec 16
  vFull : BitVec 16
  vFloor : BitVec 16
  vinScale : BitVec 16
  vstoreScale : BitVec 16
  costFixed : Word
  costPj : Word
  saveBudget : Word
  charger : Charger
  chgEn : Bool
  started : Bool
  iset : Byte
  calRunning : Bool
  isetMax : Byte
  fails : BitVec 16
  tests : BitVec 16
  test : Option ETest
  /-- Sum of store current and scans of the running 1 s window (R493). -/
  winSum : Int
  winScans : Nat
  overScans : Nat
  /-- A charge period of a retry is running (R493). -/
  retrying : Bool
  /-- CAP_MF × V_oc² at the points E0, E1 and E2 of a calibration, V_oc in µV, and the current of the granule phase (R500). -/
  cal0 : Option Nat
  cal1 : Option Nat
  cal2 : Option Nat
  calSum : Int
  calScans : Nat
  deriving DecidableEq, Repr

/-- Write admission (Table 6.4, R501 to R504). -/
structure Admit where
  pct : BitVec 7
  mode : BitVec 2
  limit : Word
  holdCount : BitVec 16
  holding : Bool
  overLim : Bool
  deriving DecidableEq, Repr

/-- SAVE in progress (Table 15.3). -/
structure Sav where
  phase : BitVec 3
  from_ : Mode
  /-- Granules finished, the save-set size and granules taken (R540, R550). -/
  finished : Nat
  setSize : Nat
  taken : Nat
  /-- Granules whose target was lost, to be taken next (R661). -/
  again : List Nat
  /-- Granules programmed in this SAVE (R500). -/
  programmed : Nat
  classes : List RegAttr
  skip : Bool
  committed : Bool
  /-- The reason of a short ending (R550). -/
  short : Option Nat
  /-- FLASH_BOUND for this SAVE (R418). -/
  bound : Nat
  /-- The decision of R42, made at the commit or at the end of a skip. -/
  resume : Option Bool
  abandoned : Bool
  /-- Kind and code of the fault that abandoned it (Table 15.5). -/
  fault : Nat × Nat
  markerGen : Word
  /-- The NAND channels run at their SAVE rate of 1 600 MT/s (R542, R554). -/
  nandSlow : Bool
  deriving DecidableEq, Repr

/-- A sector delivered whose verdict is pending (R454). -/
structure Verdict where
  granule : Nat
  sector : Nat
  pass : Bool
  deriving DecidableEq, Repr

/-- A granule being restored (R570): its plaintext bytes, its job of restore writes, and the sectors still to be judged
before any write (VERIFY_FIRST). -/
structure RGran where
  granule : Nat
  job : Option Job
  data : List Host.Cell
  tainted : Bool
  /-- A restore write of the granule has been issued (R580). -/
  begun : Bool
  /-- Sectors not judged yet with VERIFY_FIRST, or not delivered yet without (R454, R455). -/
  unjudged : List Nat
  failed : List Nat
  /-- Sectors whose tags the bytes read do not carry (R436). -/
  forged : List Nat
  deriving DecidableEq, Repr

/-- RESTORE in progress (R566 to R581). -/
structure Rst where
  unrestored : List Nat
  total : Nat
  classes : List RegAttr
  demand : List Nat
  flight : List RGran
  verdicts : List Verdict
  ckpts : List (Option Checkpoint)
  captures : List (List Word)
  admitted : Bool
  nextTenth : Nat
  deriving DecidableEq, Repr

/-- The herd controller (Table 6.12). -/
structure Herd where
  st : BitVec 4
  joined : Bool
  addr : BitVec 5
  line : Bool
  pulling : Bool
  policy : BitVec 2
  tStall : BitVec 16
  stalls : BitVec 16
  steps : BitVec 16
  lastStallLen : BitVec 16
  lastStallState : BitVec 4
  /-- The target of the HERD_STEP the device waits at (R515). -/
  waitFor : Option (BitVec 4)
  /-- The device has incremented in the present high period (R512). -/
  counted : Bool
  /-- The pull of R513 is due at t_grab; the line is held until t_hold. -/
  grabDue : Bool
  holdRunning : Bool
  /-- This low period has given its stall (R525). -/
  stalled : Bool
  deriving DecidableEq, Repr

/-- What IR_TX is carrying (R615). -/
inductive IrTx where
  | free | statusPage | beacon | host (start length : Nat) | blink (sink : Bool)
  deriving DecidableEq, Repr

/-- Rooster (Table 6.13). -/
structure Roo where
  beaconEn : Bool
  interval : Byte
  duty : Bool
  khz : Byte
  shortId : BitVec 16
  lastKey : Byte
  lastArg : Byte
  repeats : Byte
  keyHeld : Bool
  alarm : Bool
  framesBad : BitVec 16
  framesRx : BitVec 16
  beaconsSent : BitVec 16
  /-- Pattern bit n is bit 4095 - n. -/
  pattern : BitVec 4096
  beaconPending : Bool
  statusAsked : Option Byte
  statusPending : Option Byte
  hostPending : Option (Nat × Nat)
  blinkPending : Bool
  blinking : Bool
  tx : IrTx
  /-- Carrier period and sink cycles of the transmission (R601). -/
  txPeriod : Nat
  txOn : Nat
  topFault : Byte
  deriving DecidableEq, Repr

/-- Thermal unit (Table 6.15): temperatures in whole degrees Celsius; an unused diode reads -128. -/
structure Therm where
  tDie : Int
  td : List Int
  tdRaw : List (Option Int)
  tdFaulty : BitVec 4
  tdUsed : BitVec 4
  on : Byte
  off : Byte
  causes : BitVec 3
  active : Bool
  events : BitVec 16
  tMax : Int
  hist : List Word
  overLimit : Bool
  /-- The highest T_DIE of the minute that runs (R656), and those of the last 1 440 minutes, oldest first (R419). -/
  minuteMax : Int
  minutes : List Int
  /-- The last 100 scans of the on-die sensor. -/
  scans : List Int
  deriving DecidableEq, Repr

/-- One periodic task of Table 2.6 (refresh and retraining have one per channel). -/
structure Task where
  late : BitVec 16
  behind : Bool
  /-- Due times that have passed with their instance unstarted (R52). -/
  missed : Nat
  /-- The instance that started last started late (R51, R54). -/
  startedLate : Bool
  /-- The instance stopped at SAVE entry, and whether its first start was late (R54). -/
  restart : Option Bool
  /-- T0 has been set since STARTUP, at this uptime (R50). -/
  anchor : Option Nat
  deriving DecidableEq, Repr

/-- The IEEE 1149.1 TAP controller states. -/
inductive Tap where
  | testLogicReset | runTestIdle | selectDr | captureDr | shiftDr | exit1Dr | pauseDr | exit2Dr | updateDr
  | selectIr | captureIr | shiftIr | exit1Ir | pauseIr | exit2Ir | updateIr
  deriving DecidableEq, Repr

/-- The boundary-scan port (R69): the TAP state, and the TDO level (`none` high impedance). -/
structure Jtag where
  tap : Tap
  tdo : Option Bool
  shifts : Nat
  deriving DecidableEq, Repr

/-- What a cycle leaves to be done at its end: events with their order keys, and DRAM writes (R127, R626). -/
inductive MemOp where
  | write (addr : Nat) (value : Byte)
  | zero (lo hi : Nat)
  | clear
  deriving DecidableEq, Repr

structure Outbox where
  events : List (Nat × Event)
  mem : List MemOp
  /-- CONFIG clears the event queue (R132). -/
  clearQueue : Bool
  /-- Entries EVENT_POP removes (R129). -/
  pop : Nat
  /-- The entry to STARTUP that sets STATE_SEQ to 0 (R117), and an accepted Ledger write that increments it (R182). -/
  seqReset : Bool
  bump : Bool
  deriving DecidableEq, Repr

/-- Every unit of the device. -/
structure Dev where
  eu : Eu
  ctl : Ctl
  clk : Clk
  ident : Ident
  fa : Fab
  fb : Fab
  reg : Reg
  ce : List Ce
  mc : List Mc
  dcfg : Dcfg
  /-- DRAM contents by device address, in canonical form; an unlisted byte is zero. -/
  mem : List Host.Cell
  img : Img
  cip : Cip
  rail : Rail
  adc : Adc
  egy : Egy
  adm : Admit
  sav : Sav
  rst : Rst
  herd : Herd
  roo : Roo
  therm : Therm
  tasks : List Task
  jtag : Jtag
  /-- The model's own counter of free values used (log entry 4). -/
  free : Nat
  out : Outbox
  deriving DecidableEq, Repr

/-- The state of the block: the commands waiting, first in, first out; the device; and the device at the ends of the cycles before
the latest, newest first, back to the end of the latest transaction: the cycles in which the next transaction's snapshot and
reply may fall (R100, R115, log entry 2). -/
structure State where
  pending : List Instr
  d : Dev
  past : List Dev
  deriving DecidableEq, Repr

/-- Reasons a step could stop the machine. The spec gives every command an effect, so the type has no constructor: no step
raises a fault, which is safe. -/
inductive Fault where
  deriving DecidableEq, Repr

/-- Reasons a step is refused. -/
inductive Refusal where
  /-- Raised by an arm of `exec` whose meaning has not been written. Safe. -/
  | notModelled (mnemonic : String)
  deriving DecidableEq, Repr


/-- Region attributes at reset (Table 6.6). -/
def RegAttr.none : RegAttr :=
  { enable := false, rights := 0, saveClass := 0, domain := 0, hint := 0, base := 0, limit := 0 }

/-- A region block at reset (Table 6.6). -/
def Region.reset : Region := { cur := RegAttr.none, commitEpoch := 0, staged := .none, faults := 0 }

/-- The management plane after CONFIG (Tables 6.3, 6.4); WAIT_BYTES is 4 or 8 by STRAP0 (R79). -/
def Eu.reset : Eu :=
  { stateSeq := 0, waitBytes := 4, locked := false, queue := [], lost := 0, held := [], syncErrors := 0, crcErrors := 0,
    abandoned := 0, domainFaultSeen := false, overflowSeen := false, refclkLostSeen := false, hoscDriftSeen := false,
    scratch := [0, 0, 0, 0], reply := .none }

/-- Mode control with RESET_N asserted and the supplies up (Table 6.4). -/
def Ctl.reset : Ctl :=
  { mode := .startup, step := .config, hostPath := false, pathCause := 0, saveArmed := false, lastTrigger := 0,
    resetCause := 0, resumeCount := 0, safeholdCauses := 0, causeFixed := false, retrainFailed := false,
    returnMode := .operate, pathOpened := false, resetLow := true, resetLatched := false, uptimeMs := 0,
    pfailLow := false, powerGoodSince := some 0, entry := .none, entrySwitching := false, domainsDown := 0,
    domainHold := false }

/-- The clock unit in CONFIG (R31). -/
def Clk.reset : Clk :=
  { src := true, switching := false, target := true, refGood := false, pllLocked := false, hoscDev := 0, hoscOut := false }

/-- Straps not sampled and fuses not loaded. -/
def Ident.reset : Ident :=
  { strap0 := false, strap1 := false, sampled := false, serial := 0, herdAddr := 0, dus := 0, cert := [] }

/-- A port at reset (Table 6.5). -/
def Fab.reset : Fab :=
  { enabled := true, maxWidth := 8, maxRate := 3, useWidth := 8, useRate := 3, link := .disabled, rate := 0, width := 0, trainCount := 0, replays := 0,
    naksSent := 0, crcErrors := 0, retrains := 0, cplRegionFault := 0, cplFrozen := 0, cplPoisoned := 0, cplUnmapped := 0,
    cplNotAdmitted := 0, reads := 0, writes := 0, fresetLow := false, txSeq := 0, rxSeq := 0, txLimit := 0,
    txConsumed := 0, rxLimit := 512, rxConsumed := 0, lastCreditSent := 512, rx := [], inflight := [], cq := [],
    replay := [], resend := [], nakSent := false, skipToPso := false, episodes := 0, ackOwed := 0, tb1Good := 0, tb2Good := 0,
    tb2Last := 0, tb2Sent := 0, hostRates := 0, hostWidth := 0, hostCredits := 0, hostResume := false, hostRxSeq := 0,
    laneLock := 0, presetStep := 0, bestEye := 0, bestPreset := 11, keptPreset := 11, txPreset := 0, eqRate := 0, eqFailed := false,
    afterRetrain := false, holdsState := false, sent := [] }

/-- Regions and the epoch at reset (R264). -/
def Reg.reset : Reg :=
  { regions := List.replicate 64 Region.reset, epoch := 0, reported := 0, faultAddr := 0, faultOrigin := 0, faultId := 0,
    countBy := [] }

/-- A copy engine at reset (Table 6.7). -/
def Ce.reset : Ce :=
  { st := .idle, cause := 0, run := .none, runChunk := 0, stopChunk := 0, lastDone := 0xFFFF, descDone := 0,
    chunksDone := 0, queue := [], nextId := 0, job := .none, jobEpoch := 0, jobAttrs := [], cancelId := 0, preempt := .none,
    checkpoint := .none }

/-- A DRAM channel at reset (Table 6.8). -/
def Mc.reset : Mc :=
  { used := false, offline := false, trained := false, frozen := false, freezeKind := 0, trainedSinceFreeze := false,
    captureValid := false, refresh2x := false, retraining := false, ranks := 0, density := 0, mr4 := 0, mr4Clean := 0,
    overTemp := false, yokeThresh := 4096, yokeEn := false, coinK := 10, coinEn := true, hintPolicy := false,
    retrainPeriod := 60, tempTrigEn := false, retrainEn := false, corrected := 0, uncorrectable := 0, freezes := 0,
    rfmIssued := 0, yokeHolds := 0, tempRetrains := 0, retrains := 0, train := List.replicate 10 0,
    ca := [[], []], vref := List.replicate 10 (0, 0), edges := List.replicate 5 { rdLow := 0, rdHigh := 0, wrLow := 0, wrHigh := 0 },
    rankEyes := List.replicate 5 [], stage := 0, point1Done := false, probed := false,
    drfm := 0, rfm := [0, 0, 0, 0], raa := [], queue := [], nextId := 0, openRows := [], pointerFb := false, owed := [0, 0, 0, 0], overdue := [0, 0, 0, 0],
    bankDone := [0, 0, 0, 0], forced := [false, false, false, false], selfRefresh := false, onPoint1 := false,
    yokeOn := false, yokeThreshNow := 4096, yokeCounts := [], yokeHeld := [], window := [], coinOwed := [],
    pass := .none, passTemp := 0, mr4Wait := .none, fullTrain := false, passAsked := false, untrained := false, capture := [], captureToCopy := false,
    keeperCapture := [], commands := [] }

/-- The DRAM configuration at reset (Table 6.3, R312). -/
def Dcfg.reset : Dcfg :=
  { chUsed := 0, ways := 2, grain := 3, opRate := 0, opReduced := false, installedMib := 0, visibleMib := 0,
    keeperMib := 0, granules := 0, reference := .none, refRanks := 0, refDensity := 0 }

/-- No NAND geometry has been read. -/
def FlashGeom.none : FlashGeom :=
  { manufacturer := 0, model := 0, retries := 0, pageBytes := 0, spareBytes := 0, pslc := false, luns := 0, planes := 0, pagesPerBlock := 0,
    blockGroups := 0, endurance := .none, nativeEndurance := 0 }

/-- The image store before the IMAGE step, over blank flash (Table 6.9; log entry 8 for the blank flash). -/
def Img.reset : Img :=
  { usable := false, deferred := false, state := 0xFF, flags := 0, generation := 0, granules := 0, unsaved := 0,
    tainted := 0, rekeyBoundary := 0, commitCause := 0, escrowCheck := 0, targetMap := 0, trickleEn := true,
    tricklePeriod := 100, trickleShare := 6, gcRuns := 0, gcVictim := .none, relocs := [], shareCredit := 0, ratedCycles := 0,
    ratedWritten := .none, ratedInUse := 0, allowDayMib := 0, usedPages := 0, lifePages := 0, peMax := 0, peAvg := 0,
    blockCycles := [], serviceDays := 0, scrubPasses := 0, scrubHours := 168, badBlocks := 0, retired := [], sys := [], erases := [],
    lost := 0, commits := 0, trickled := 0, bchCorrected := 0, bchUncorrectable := 0, geom := FlashGeom.none, gmap := [],
    committed := [], slots := [], primary := { next := 0, pages := [] }, secondary := { next := 0, pages := [] }, records := [.none, .none], keeperCkpt := [], keeperCap := [],
    dir := [], copyGen := 0, seqReserve := 0, wroteHeader := false, candidate := .none, stage := 0, cls := 0, tokens := 0,
    throttled := false, wearLimited := false, cursors := [0, 0, 0], batch := [], trickleRun := false, copies := [],
    ops := [], nextOp := 1, commit := .none, commitAsked := [], flush := .none, changed := false, lastCommitMs := 0,
    recordDue := false, scrub := .none, lastScrubMs := 0 }

/-- The cipher before the IMAGE step (Table 6.10). -/
def Cip.reset : Cip :=
  { escrow := .none, escrowCheck := 0, bound := false, imkGen := 0, imk := 0, imkOld := 0, oldGen := 0, rekeyActive := 0,
    keyed := 0, domKey := List.replicate 7 0, domOld := List.replicate 7 0,
    boundary := List.replicate 7 0, imageBoundary := 0, verifyFirst := false, lateAuthFails := 0, poison := [],
    alarmWorst := 0, rekeyShare := 3, trngFault := false, goatQueue := [], goat := .none, noEscrowSent := false,
    headerGen := 0, binding := [], burstKeys := [] }

/-- An unloaded rail slot (Table 6.11). -/
def Slot.reset : Slot := { entry := 0, st := .unused, pg := false, vs := 0, enabled := false, faultCount := 0 }

/-- The sequencer with nothing loaded (Table 6.11). -/
def Rail.reset : Rail :=
  { slots := List.replicate 16 Slot.reset, header := 0, deps := List.replicate 16 0, program := List.replicate 64 0,
    st := .empty, pc := 0, waiting := 0, steps := 0, retries := 0, attempt := 0, excludedRun := false,
    faultValid := false, faultRail := 0, coalesced := 0, order := [], delaying := [], pending := [], shut := .none,
    abandonWait := false, snaps := [], snapTotal := 0, lastCause := 0, lastSlot := 0, lastSnapMs := 0,
    vinFired := false, vinBelow := 0 }

/-- The ADC before its first scan. -/
def Adc.reset : Adc := { vin := 0, vstore := 0, ichg := 0, vocs := [] }

/-- The energy manager at reset (Table 6.14). -/
def Egy.reset : Egy :=
  { eAvail := 0, capMf := 0, testAgeMs := 0, esr := 0, vFull := 0, vFloor := 0, vinScale := 0, vstoreScale := 0,
    costFixed := 0, costPj := 20000, saveBudget := 0, charger := .unconfigured, chgEn := false, started := false, iset := 0,
    calRunning := false, isetMax := 0x80, fails := 0, tests := 0, test := .none, winSum := 0, winScans := 0,
    overScans := 0, retrying := false, cal0 := .none, cal1 := .none, cal2 := .none, calSum := 0, calScans := 0 }

/-- Admission at reset (Table 6.4). -/
def Admit.reset : Admit := { pct := 90, mode := 1, limit := 0, holdCount := 0, holding := false, overLim := false }

/-- No SAVE. -/
def Sav.reset : Sav :=
  { phase := 0, from_ := .operate, finished := 0, setSize := 0, taken := 0, again := [], programmed := 0, classes := [], skip := false,
    committed := false, short := .none, bound := 0, resume := .none, abandoned := false, fault := (0, 0), markerGen := 0, nandSlow := false }

/-- No RESTORE. -/
def Rst.reset : Rst :=
  { unrestored := [], total := 0, classes := [], demand := [], flight := [], verdicts := [], ckpts := [], captures := [],
    admitted := false, nextTenth := 1 }

/-- The herd controller at reset (Table 6.12). -/
def Herd.reset : Herd :=
  { st := 0, joined := false, addr := 0, line := false, pulling := false, policy := 0, tStall := 100, stalls := 0,
    steps := 0, lastStallLen := 0, lastStallState := 0, waitFor := .none, counted := false, grabDue := false,
    holdRunning := false, stalled := false }

/-- Rooster at reset (Table 6.13). -/
def Roo.reset : Roo :=
  { beaconEn := true, interval := 10, duty := false, khz := 38, shortId := 0, lastKey := 0, lastArg := 0, repeats := 0,
    keyHeld := false, alarm := false, framesBad := 0, framesRx := 0, beaconsSent := 0, pattern := 0,
    beaconPending := false, statusAsked := .none, statusPending := .none, hostPending := .none, blinkPending := false,
    blinking := false, tx := .free, txPeriod := 0, txOn := 0, topFault := 0 }

/-- The thermal unit at reset (Table 6.15). -/
def Therm.reset : Therm :=
  { tDie := 0, td := [-128, -128, -128, -128], tdRaw := [some 0, some 0, some 0, some 0], tdFaulty := 0, tdUsed := 0,
    on := 140, off := 130, causes := 0, active := false, events := 0, tMax := -128, hist := List.replicate 8 0,
    overLimit := false, minuteMax := -128, minutes := [], scans := [] }

/-- A periodic task at reset. -/
def Task.reset : Task := { late := 0, behind := false, missed := 0, startedLate := false, restart := .none, anchor := .none }

/-- Nothing to do at the end of a cycle. -/
def Outbox.none : Outbox := { events := [], mem := [], clearQueue := false, pop := 0, seqReset := false, bump := false }

/-- The device right after reset: supplies up, RESET_N asserted, every Ledger field at its reset value. -/
def Dev.reset : Dev :=
  { eu := Eu.reset, ctl := Ctl.reset, clk := Clk.reset, ident := Ident.reset, fa := Fab.reset, fb := Fab.reset,
    reg := Reg.reset, ce := List.replicate 4 Ce.reset, mc := List.replicate 4 Mc.reset, dcfg := Dcfg.reset, mem := [],
    img := Img.reset, cip := Cip.reset, rail := Rail.reset, adc := Adc.reset, egy := Egy.reset, adm := Admit.reset,
    sav := Sav.reset, rst := Rst.reset, herd := Herd.reset, roo := Roo.reset, therm := Therm.reset,
    tasks := List.replicate 11 Task.reset, jtag := { tap := .testLogicReset, tdo := .none, shifts := 0 }, free := 0,
    out := Outbox.none }

/-- The block after reset, with no command waiting. -/
def State.reset : State := { pending := [], d := Dev.reset, past := [] }

end Sys2Proof.Machine
end

