-- ==== Sys2Proof/Machine/Crc.lean ====
section
/-! DEFINITION. Check codes: CRC-16 (R98), CRC-8 (R603), CRC-32 (R231) and the Reed-Solomon code of DRAM (R366 to R368). -/
namespace Sys2Proof.Machine
open Sys2Proof

/-- One step of the CRC-16 register over a bit position (R98). -/
def crc16Step (c : BitVec 16) : BitVec 16 := if c.msb then (c <<< 1) ^^^ 0x1021 else c <<< 1

/-- CRC-16 of a byte list (R98). -/
def crc16 (l : List Byte) : BitVec 16 :=
  l.foldl (fun c b => (List.range 8).foldl (fun c _ => crc16Step c) (c ^^^ ((b.setWidth 16 : BitVec 16) <<< 8))) (0xFFFF : BitVec 16)

/-- CRC-8 of a byte list (R603). -/
def crc8 (l : List Byte) : Byte :=
  l.foldl (fun c b => (List.range 8).foldl (fun c _ => if c.msb then (c <<< 1) ^^^ 0x07 else c <<< 1) (c ^^^ b)) 0

/-- CRC-32 of a byte list, reflected (R231): 0x04C11DB7 read from its low end is 0xEDB88320. -/
def crc32 (l : List Byte) : Word :=
  (l.foldl (fun c b => (List.range 8).foldl
    (fun c _ => if c.getLsbD 0 then (c >>> 1) ^^^ 0xEDB88320 else c >>> 1) (c ^^^ (b.setWidth 32 : Word))) (0xFFFFFFFF : Word)) ^^^ 0xFFFFFFFF

/-- The bytes of a word, most significant first (R2). -/
def wordBytes (w : Word) : List Byte := [w.extractLsb' 24 8, w.extractLsb' 16 8, w.extractLsb' 8 8, w.extractLsb' 0 8]

/-- The bytes of a packet that its CRC-32 covers: header, most significant byte first, and payload (R231). -/
def Packet.body (k : Packet) : List Byte := (List.range 16).map (fun i => k.hdr.extractLsb' (8 * (15 - i)) 8) ++ k.data

/-- The CRC-32 of a packet. -/
def Packet.crc (k : Packet) : Word := crc32 k.body

/-- A packet as it stands in the byte stream, its CRC-32 most significant byte first. -/
def Packet.bytes (k : Packet) : List Byte := k.body ++ wordBytes k.crc

/-- The reply packet on EM_DO (Table 4.2). -/
def Reply.packet (r : Reply) : List Byte :=
  let body := r.tagByte :: r.status :: BitVec.ofNat 8 r.payload.length :: r.payload.flatMap wordBytes
  let c := crc16 body
  0x5A :: body ++ [c.extractLsb' 8 8, c.extractLsb' 0 8]

/-- The bytes on EM_DO in a transaction with a reply: 0x00 through the request and the wait bytes, the reply packet, and 0x00 in the
settle byte (R92, R93). -/
def Reply.emDo (r : Reply) : List Byte := List.replicate r.before 0 ++ r.packet ++ [0]

/-- The request packet on EM_DI (Table 4.1), for an opcode and its own parameter bytes. -/
def requestPacket (x : Xact) (opcode : Byte) (params : List Byte) : List Byte :=
  let par := (match x.seq with | some w => wordBytes w | none => []) ++ params
  let b2 : Byte := (x.tag.setWidth 8 <<< 2) ||| (if x.seq.isSome then 2 else 0) ||| (if x.rsv then 1 else 0)
  let body := opcode :: b2 :: x.plen :: par
  let c := crc16 body
  0xA5 :: body ++ [c.extractLsb' 8 8, c.extractLsb' 0 8]

/-! ### Reed-Solomon over GF(2^8) (R367, R368) -/

/-- Doubling in the code's field, x^8 + x^4 + x^3 + x^2 + 1. -/
def gfX (b : Byte) : Byte := if b.msb then (b <<< 1) ^^^ 0x1D else b <<< 1

/-- Product in the code's field. -/
def gfMul (a b : Byte) : Byte :=
  ((List.range 8).foldl (fun (acc : Byte × Byte) i =>
    (if b.getLsbD i then acc.1 ^^^ acc.2 else acc.1, gfX acc.2)) (0, a)).1

/-- Powers in the code's field. -/
def gfPow (a : Byte) : Nat → Byte
  | 0 => 1
  | n + 1 => gfMul a (gfPow a n)

/-- The inverse in the code's field (a^254). -/
def gfInv (a : Byte) : Byte := gfPow a 254

/-- The generator polynomial's coefficients below x^16, highest first: g(x) = product of (x - alpha^i), i = 0 to 15. -/
def rsGenerator : List Byte :=
  ((List.range 16).foldl (fun (g : List Byte) i =>
    List.zipWith (· ^^^ ·) (g ++ [0]) (0 :: g.map (gfMul (gfPow 2 i)))) [1]).drop 1

/-- The 16 check symbols of 64 data symbols, x^15 first (R367). -/
def rsCheck (data : List Byte) : List Byte :=
  data.foldl (fun (r : List Byte) d =>
    let f := d ^^^ r.headD 0
    List.zipWith (· ^^^ ·) (r.drop 1 ++ [0]) (rsGenerator.map (gfMul f))) (List.replicate 16 0)

/-- The syndromes S0 to S15 of 80 symbols (R367). -/
def rsSyndromes (cw : List Byte) : List Byte :=
  (List.range 16).map (fun i => cw.foldl (fun acc s => gfMul acc (gfPow 2 i) ^^^ s) 0)

/-- The 64 data symbols of 64 data bytes: symbol 2p + h holds pin p over beats 8h to 8h + 7 (R366). -/
def rsSymbols (bytes : List Byte) : List Byte :=
  (List.range 64).map (fun s =>
    let p := s / 2
    let h := s % 2
    (List.range 8).foldl (fun (acc : Byte) b =>
      let byte := bytes.getD (4 * (8 * h + b) + p / 8) 0
      (acc <<< 1) ||| (if byte.getLsbD (p % 8) then 1 else 0)) 0)

/-- The codeword of 64 stored bytes: data symbols 0 to 63, then check symbols. -/
def rsCodeword (bytes : List Byte) : List Byte := let s := rsSymbols bytes; s ++ rsCheck s

/-- Value of a polynomial, lowest coefficient first, at a point. -/
def gfEval (p : List Byte) (x : Byte) : Byte := p.foldr (fun c acc => gfMul acc x ^^^ c) 0

/-- The error locator by the Berlekamp-Massey recursion: locator, previous locator, length, shift, previous discrepancy. -/
def rsLocator (synd : List Byte) : List Byte × Nat :=
  let r := (List.range 16).foldl (fun (st : List Byte × List Byte × Nat × Nat × Byte) n =>
    let (c, b, len, m, bd) := st
    let d := (List.range (len + 1)).foldl (fun acc i => acc ^^^ gfMul (c.getD i 0) (synd.getD (n - i) 0)) 0
    if d = 0 then (c, b, len, m + 1, bd)
    else
      let k := gfMul d (gfInv bd)
      let shifted := List.replicate m (0 : Byte) ++ b.map (gfMul k)
      let w := max c.length shifted.length
      let c' := (List.range w).map (fun i => c.getD i 0 ^^^ shifted.getD i 0)
      if 2 * len ≤ n then (c', c, n + 1 - len, 1, d) else (c', b, len, m + 1, bd)) ([1], [1], 0, 1, 1)
  (r.1, r.2.2.1)

/-- The outcome of decoding a codeword (R368): the corrected symbols and how many were in error, or none. -/
def rsDecode (cw : List Byte) : Option (List Byte × Nat) :=
  let synd := rsSyndromes cw
  if synd.all (· = 0) then some (cw, 0)
  else
    let (loc, len) := rsLocator synd
    let roots := (List.range 80).filter (fun s => gfEval loc (gfPow 2 (255 - (79 - s))) = 0)
    if len ≤ 8 && roots.length = len then
      let omega := (List.range 16).map (fun i =>
        (List.range (i + 1)).foldl (fun acc j => acc ^^^ gfMul (loc.getD j 0) (synd.getD (i - j) 0)) 0)
      let deriv := (List.range loc.length).filterMap (fun i => if i % 2 = 1 then some (i, loc.getD i 0) else none)
      let fixed := (List.range 80).map (fun s =>
        if roots.contains s then
          let xi := gfPow 2 (255 - (79 - s))
          let num := gfEval omega xi
          let den := deriv.foldl (fun acc p => acc ^^^ gfMul p.2 (gfPow xi (p.1 - 1))) 0
          cw.getD s 0 ^^^ gfMul (gfPow 2 (79 - s)) (gfMul num (gfInv den))
        else cw.getD s 0)
      if (rsSyndromes fixed).all (· = 0) then some (fixed, len) else none
    else none

/-- The 64 data bytes a codeword's data symbols carry (R366). -/
def rsBytes (cw : List Byte) : List Byte :=
  (List.range 64).map (fun i =>
    (List.range 8).foldl (fun (acc : Byte) k =>
      let pin := 8 * (i % 4) + k
      let beat := i / 4
      let sym := cw.getD (2 * pin + beat / 8) 0
      if sym.getLsbD (7 - beat % 8) then acc ||| ((1 : Byte) <<< k) else acc) 0)

end Sys2Proof.Machine
end

