-- ==== Sys2Proof/Machine/Ops.lean ====
section
/-! DEFINITION. The named operations over memory, events and the units: everything a command's meaning is written with, and
the end of a data-plane cycle, where the cycle's events are queued and STATE_SEQ counts the change. -/
namespace Sys2Proof.Machine
open Sys2Proof

/-! ### DRAM bytes -/

/-- The byte of DRAM at a device address; an unlisted one is zero (R421 stage 6, log entry 7). -/
def memRead : List Host.Cell → Nat → Byte
  | [], _ => 0
  | (k, v) :: t, a => if k = a then v else memRead t a

/-- DRAM with one byte written, in canonical form. -/
def memWrite : List Host.Cell → Nat → Byte → List Host.Cell
  | [], a, v => if v = 0 then [] else [(a, v)]
  | (k, w) :: t, a, v =>
    if a < k then (if v = 0 then (k, w) :: t else (a, v) :: (k, w) :: t)
    else if a = k then (if v = 0 then t else (a, v) :: t)
    else (k, w) :: memWrite t a v

/-- The canonical form: addresses strictly rising, and no byte equal to what an unlisted address reads as. -/
abbrev memWf (m : List Host.Cell) : Prop := m.Pairwise (fun x y => x.1 < y.1) ∧ ∀ c ∈ m, c.2 ≠ 0

/-- DRAM with the bytes `lo` to `hi - 1` zero. -/
def memZero (m : List Host.Cell) (lo hi : Nat) : List Host.Cell := m.filter (fun c => !(lo ≤ c.1 && c.1 < hi))

/-- One memory operation of a cycle's end. -/
def memApply (m : List Host.Cell) : MemOp → List Host.Cell
  | .write a v => memWrite m a v
  | .zero lo hi => memZero m lo hi
  | .clear => []

/-- `n` bytes from address `a`. -/
def memBytes (m : List Host.Cell) (a n : Nat) : List Byte := (List.range n).map (fun i => memRead m (a + i))

/-! ### Lists of units -/

/-- The list with element `i` changed. -/
def listUpd {α : Type} (l : List α) (i : Nat) (f : α → α) : List α := l.modify i f

/-- Channel `c` (R300). -/
def Dev.chan (d : Dev) (c : Nat) : Mc := d.mc.getD c Mc.reset
/-- Copy engine `n` (R269). -/
def Dev.engine (d : Dev) (n : Nat) : Ce := d.ce.getD n Ce.reset
/-- Rail slot `s` (R468). -/
def Dev.slot (d : Dev) (s : Nat) : Slot := d.rail.slots.getD s Slot.reset
/-- Region `n` (R253). -/
def Dev.region (d : Dev) (n : Nat) : Region := d.reg.regions.getD n Region.reset
/-- A fabric port (R202). -/
def Dev.port (d : Dev) : Port → Fab
  | .fa => d.fa
  | .fb => d.fb
/-- Periodic task `t`: 0 to 3 refresh, 4 to 7 retraining, 8 trickle, 9 energy test, 10 flash scrub (bits of BEHIND). -/
def Dev.task (d : Dev) (t : Nat) : Task := d.tasks.getD t Task.reset

/-- Change channel `c`. -/
def Dev.onChan (d : Dev) (c : Nat) (f : Mc → Mc) : Dev := { d with mc := listUpd d.mc c f }
/-- Change engine `n`. -/
def Dev.onEngine (d : Dev) (n : Nat) (f : Ce → Ce) : Dev := { d with ce := listUpd d.ce n f }
/-- Change rail slot `s`. -/
def Dev.onSlot (d : Dev) (s : Nat) (f : Slot → Slot) : Dev := { d with rail := { d.rail with slots := listUpd d.rail.slots s f } }
/-- Change region `n`. -/
def Dev.onRegion (d : Dev) (n : Nat) (f : Region → Region) : Dev := { d with reg := { d.reg with regions := listUpd d.reg.regions n f } }
/-- Change port `p`. -/
def Dev.onPort (d : Dev) (p : Port) (f : Fab → Fab) : Dev :=
  match p with
  | .fa => { d with fa := f d.fa }
  | .fb => { d with fb := f d.fb }
/-- Change periodic task `t`. -/
def Dev.onTask (d : Dev) (t : Nat) (f : Task → Task) : Dev := { d with tasks := listUpd d.tasks t f }

/-- The port parameter of an event: 0 for FA and 1 for FB (R248). -/
def portCode : Port → Nat
  | .fa => 0
  | .fb => 1

/-- Codes of MODE (Table 2.1); UNPOWERED has no Ledger representation. -/
def Mode.code : Mode → Nat
  | .unpowered => 0
  | .startup => 0
  | .operate => 1
  | .save => 2
  | .restore => 3
  | .safehold => 4

/-- Codes of STARTUP_STEP (Table 2.2). -/
def SStep.code : SStep → Nat
  | .config => 0
  | .waitRails => 1
  | .rails => 2
  | .waitRefclk => 3
  | .dram => 4
  | .image => 5
  | .done => 6
  | .halted => 15

/-! ### Events -/

/-- Several parameter values, each in its width in bytes, the first most significant (R126). -/
def packBytes : List (Nat × Nat) → Nat
  | l => l.foldl (fun acc p => acc * 2 ^ (8 * p.1) + p.2 % 2 ^ (8 * p.1)) 0

/-- Raise an event whose place among the events of its cycle is `key` (R127). -/
def Dev.emitAt (d : Dev) (key code param : Nat) : Dev :=
  { d with out := { d.out with events := d.out.events ++ [(key, { code := BitVec.ofNat 16 code, param := BitVec.ofNat 48 param })] } }

/-- Raise an event, in ascending code order within its cycle (R127). -/
def Dev.emit (d : Dev) (code param : Nat) : Dev := d.emitAt code code param

/-- Put a keyed event before the first with a greater key: a stable sort of the cycle's events (R127). -/
def insertEvent (e : Nat × Event) : List (Nat × Event) → List (Nat × Event)
  | [] => [e]
  | h :: t => if e.1 < h.1 then e :: h :: t else h :: insertEvent e t

/-- The cycle's events in queue order (R127). -/
def sortEvents (l : List (Nat × Event)) : List Event :=
  (l.foldl (fun acc e => insertEvent e acc) []).map (·.2)

/-- Queue events, discarding and counting those that find 32 entries (R131). -/
def pushEvents (q : List Event) (lost : BitVec 16) : List Event → List Event × BitVec 16
  | [] => (q, lost)
  | e :: t => if q.length < 32 then pushEvents (q ++ [e]) lost t else pushEvents q (satInc lost) t

/-- ATTN_N is asserted while the queue is not empty (R8, R130). -/
def Dev.attn (d : Dev) : Bool := !d.eu.queue.isEmpty

/-! ### DRAM writes of a cycle -/

/-- Write one DRAM byte at the end of the cycle. -/
def Dev.poke (d : Dev) (a : Nat) (v : Byte) : Dev := { d with out := { d.out with mem := d.out.mem ++ [.write a v] } }

/-- Write the bytes of `data` selected by `mask`, from address `a` upward. -/
def Dev.pokeMasked (d : Dev) (a : Nat) (mask : BitVec 64) (data : List Byte) : Dev :=
  { d with out := { d.out with mem := d.out.mem ++
    ((List.range 64).filter (fun i => mask.getLsbD i)).map (fun i => MemOp.write (a + i) (data.getD i 0)) } }

/-- Zero DRAM from `lo` to `hi - 1` at the end of the cycle. -/
def Dev.zeroMem (d : Dev) (lo hi : Nat) : Dev := { d with out := { d.out with mem := d.out.mem ++ [.zero lo hi] } }

/-- DRAM contents are lost (R37). -/
def Dev.loseMem (d : Dev) : Dev := { d with out := { d.out with mem := d.out.mem ++ [.clear] } }

/-! ### Free values -/

/-- The next free value (log entry 4). -/
def Dev.fresh (d : Dev) : Nat := Config.freeValue d.free

/-- The counter moved past one free value. -/
def Dev.used (d : Dev) : Dev := { d with free := d.free + 1 }

/-! ### The end of a cycle -/

/-- A device without what STATE_SEQ does not stamp: the management plane with the stagings of regions, the cycle's outbox, the record of what ports sent, the model's own counters and
the bookkeeping of time and averaging windows (R117; log entry 3). -/
def Dev.stamped (d : Dev) : Dev :=
  { d with
    eu := Eu.reset
    out := Outbox.none
    free := 0
    ctl := { d.ctl with uptimeMs := 0, powerGoodSince := .none }
    reg := { d.reg with regions := d.reg.regions.map (fun r => { r with staged := .none }) }
    fa := { d.fa with sent := [] }
    fb := { d.fb with sent := [] }
    adc := { d.adc with vocs := [] }
    egy := { d.egy with testAgeMs := d.egy.testAgeMs / 3600000, winSum := 0, winScans := 0, overScans := 0, calSum := 0, calScans := 0,
                        test := d.egy.test.map (fun t => { t with sum := 0, window := 0, scans := 0 }) }
    img := { d.img with tokens := 0 }
    therm := { d.therm with scans := [], minuteMax := 0, minutes := [] } }

/-- DRAM after the cycle that turned `a` into `b`. -/
def endMem (a b : Dev) : List Host.Cell := b.out.mem.foldl memApply a.mem

/-- The entries the cycle leaves of the old queue (R129, R132). -/
def endKept (a b : Dev) : List Event := if b.out.clearQueue then [] else a.eu.queue.drop b.out.pop

/-- Whether this cycle reports lost events: a commit edge has freed space after a loss (R131). -/
def endOverflow (a b : Dev) : Bool :=
  !b.out.clearQueue && decide (0 < b.out.pop) && decide (0 < a.eu.queue.length) && decide (a.eu.lost ≠ 0)

/-- The events the cycle queues, in order. -/
def endEvents (a b : Dev) : List Event :=
  sortEvents (b.out.events ++
    (if endOverflow a b then [(0x160, { code := 0x160, param := a.eu.lost.setWidth 48 })] else []))

/-- The event queue and EVENT_LOST after the cycle. -/
def endQueue (a b : Dev) : List Event × BitVec 16 :=
  pushEvents (endKept a b) (if b.out.clearQueue || endOverflow a b then 0 else a.eu.lost) (endEvents a b)

/-- Whether the live state of a unit differs (R117). -/
def endChanged (a b : Dev) : Bool :=
  decide ({ a.stamped with mem := endMem a b } ≠ { b.stamped with mem := endMem a b }) || decide (endMem a b ≠ a.mem)

/-- STATE_SEQ after the cycle (R117, R182, R627). -/
def endSeq (a b : Dev) : Word :=
  if b.out.seqReset then 0
  else if endChanged a b || b.out.bump then a.eu.stateSeq + 1 else a.eu.stateSeq

/-- The end of the data-plane cycle that turned `a` into `b`: DRAM writes are applied, events queued and STATE_SEQ counted.
The queue, EVENT_LOST, STATE_SEQ and DRAM are written nowhere else. -/
def endCycle (a b : Dev) : Dev :=
  { b with
    mem := endMem a b
    out := Outbox.none
    eu := { b.eu with
      queue := (endQueue a b).1
      lost := (endQueue a b).2
      stateSeq := endSeq a b
      overflowSeen := b.eu.overflowSeen || endOverflow a b } }

/-- Put an event before the first of a list with a greater code (R127). -/
def placeEvent (l : List Event) (e : Event) : List Event :=
  match l with
  | [] => [e]
  | h :: t => if e.code < h.code then e :: h :: t else h :: placeEvent t e

/-- The queue `q`, whose entries from number `k` on are of this cycle, with further events of the same cycle in their places. -/
def mergeEvents (q : List Event) (k : Nat) (new : List Event) : List Event := q.take k ++ new.foldl placeEvent (q.drop k)

/-- The end of the cycle of a commit that turned `a` into `b`. Where the commit falls in the cycle of the latest happening, which
found the device as `z`, the events of both are ordered together and STATE_SEQ counts the cycle once (R627). -/
def endCommit (shared : Option Dev) (a b : Dev) : Dev :=
  let e := endCycle a b
  match shared with
  | none => e
  | some z =>
    let kept := endKept a b
    { e with eu := { e.eu with
      queue := mergeEvents kept (kept.length - (a.eu.queue.length - z.eu.queue.length)) (e.eu.queue.drop kept.length)
      stateSeq := if b.out.seqReset || a.eu.stateSeq = z.eu.stateSeq then e.eu.stateSeq else a.eu.stateSeq } }

end Sys2Proof.Machine
end

