-- ==== Sys2Proof/Machine/Operands.lean ====
section
/-! DEFINITION. The operand forms: request, completion and link headers, training blocks, descriptors, regions, slot and
program entries, and the map from a device address to a DRAM location. -/
namespace Sys2Proof.Machine
open Sys2Proof

/-! ### Packet headers (Tables 7.4 to 7.7) -/

/-- TYPE of a header. -/
def hdrType (h : BitVec 128) : BitVec 4 := h.extractLsb' 124 4
/-- SEQ, or ACK_SEQ of an ACK or NAK. -/
def hdrSeq (h : BitVec 128) : BitVec 12 := h.extractLsb' 112 12
/-- STREAM. -/
def hdrStream (h : BitVec 128) : BitVec 3 := h.extractLsb' 109 3
/-- TAG. -/
def hdrTag (h : BitVec 128) : Byte := h.extractLsb' 100 8
/-- HINT of a request. -/
def hdrHint (h : BitVec 128) : BitVec 2 := h.extractLsb' 98 2
/-- ADDR[39:6] of a request. -/
def hdrAddr (h : BitVec 128) : BitVec 34 := h.extractLsb' 64 34
/-- MASK of a WR64. -/
def hdrMask (h : BitVec 128) : BitVec 64 := h.extractLsb' 0 64
/-- CREDIT_LIMIT of a CREDIT. -/
def hdrCredit (h : BitVec 128) : BitVec 16 := h.extractLsb' 96 16

/-- The request a header and payload carry (Table 7.5). -/
def reqOf (h : BitVec 128) (data : List Byte) : Req :=
  { kind := hdrType h, stream := hdrStream h, tag := hdrTag h, hint := hdrHint h, addr := hdrAddr h,
    mask := if hdrType h = 3 then hdrMask h else BitVec.allOnes 64, data := data, waiting := false }

/-- A read request. -/
def Req.isRead (r : Req) : Bool := r.kind = 1 || r.kind = 2
/-- A 256-byte request. -/
def Req.isLong (r : Req) : Bool := r.kind = 2 || r.kind = 4
/-- Bursts the request covers: one, or four (R219). -/
def Req.bursts (r : Req) : Nat := if r.isLong then 4 else 1
/-- First byte covered. -/
def Req.base (r : Req) : Nat := r.addr.toNat * 64
/-- Bytes covered. -/
def Req.bytes (r : Req) : Nat := 64 * r.bursts
/-- The granule covered (R400). -/
def Req.granule (r : Req) : Nat := r.base / 65536
/-- Credit cost in 64-byte units (Table 7.4). -/
def Req.cost (r : Req) : Nat := if r.kind = 3 then 2 else if r.kind = 4 then 5 else 1
/-- The source number (R202). -/
def sourceOf (p : Port) (r : Req) : Nat := 8 * portCode p + r.stream.toNat

/-- A completion header (Table 7.6), SEQ still 0. -/
def cplHeader (kind : BitVec 4) (r : Req) (code : BitVec 4) : BitVec 128 :=
  (kind.setWidth 128 <<< 124) ||| (r.stream.setWidth 128 <<< 109) ||| (r.tag.setWidth 128 <<< 100)
    ||| (code.setWidth 128 <<< 96)

/-- The completion of a request with its code and, for an OK read, its data (R217). -/
def completionOf (r : Req) (code : BitVec 4) (data : List Byte) : Packet :=
  if r.isRead then
    if code = 0 then { hdr := cplHeader (if r.isLong then 8 else 7) r code, data := data }
    else { hdr := cplHeader 9 r code, data := [] }
  else { hdr := cplHeader 0xA r code, data := [] }

/-- Credit cost of a completion (Table 7.4). -/
def cplCost (p : Packet) : Nat := if hdrType p.hdr = 7 then 2 else if hdrType p.hdr = 8 then 5 else 1

/-- A header with its SEQ set. -/
def withSeq (h : BitVec 128) (s : BitVec 12) : BitVec 128 := h ||| (s.setWidth 128 <<< 112)

/-- An ACK (0xC) or NAK (0xD) header. -/
def ackHeader (kind : BitVec 4) (s : BitVec 12) : BitVec 128 := (kind.setWidth 128 <<< 124) ||| (s.setWidth 128 <<< 112)

/-- A CREDIT header. -/
def creditHeader (limit : BitVec 16) : BitVec 128 := ((0xE : BitVec 128) <<< 124) ||| (limit.setWidth 128 <<< 96)

/-! ### Training blocks (Table 7.3); symbol 0 is the most significant byte -/

/-- Symbol `i` of a training block. -/
def tbSym (b : BitVec 128) (i : Nat) : Byte := b.extractLsb' (8 * (15 - i)) 8
/-- Whether the CHECK symbol is right (R207). -/
def tbGood (b : BitVec 128) : Bool := (List.range 15).foldl (fun acc i => acc ^^^ tbSym b i) 0 = tbSym b 15
/-- RATES: bits 0 to 2 for 8, 16 and 32 GT/s. -/
def tbRates (b : BitVec 128) : BitVec 3 := (tbSym b 2).extractLsb' 4 3
/-- WIDTH. -/
def tbWidth (b : BitVec 128) : BitVec 4 := (tbSym b 2).extractLsb' 0 4
/-- RESUME. -/
def tbResume (b : BitVec 128) : Bool := (tbSym b 3).getLsbD 7
/-- NEXT_RX_SEQ. -/
def tbNextRx (b : BitVec 128) : BitVec 12 := ((tbSym b 3).extractLsb' 0 4 ++ tbSym b 4).setWidth 12
/-- INIT_CREDITS. -/
def tbCredits (b : BitVec 128) : BitVec 16 := tbSym b 5 ++ tbSym b 6

/-- PRESET, where PRESET_REQ asks for one (R211). -/
def tbPreset (b : BitVec 128) : Option (BitVec 4) :=
  let p := (tbSym b 7).extractLsb' 0 4
  if (tbSym b 7).getLsbD 7 && p.toNat ≤ 10 then some p else none

/-- A training block the device sends: ID, its lane, its rates and width, and for TB2 its link-layer fields (R207, R208). -/
def tbMake (id lane : Byte) (rates : BitVec 3) (width : BitVec 4) (resume : Bool) (nextRx : BitVec 12) (credits : BitVec 16)
    (preset : Option Nat) : BitVec 128 :=
  let syms : List Byte := [id, lane, (rates.setWidth 8 <<< 4) ||| width.setWidth 8,
    (if resume then 0x80 else 0) ||| (nextRx.extractLsb' 8 4).setWidth 8, nextRx.extractLsb' 0 8,
    credits.extractLsb' 8 8, credits.extractLsb' 0 8,
    match preset with | some p => 0x80 ||| BitVec.ofNat 8 p | none => 0, 0, 0, 0, 0, 0, 0, 0]
  let all := syms ++ [syms.foldl (· ^^^ ·) 0]
  all.foldl (fun (acc : BitVec 128) b => (acc <<< 8) ||| b.setWidth 128) 0

/-! ### Regions (Table 5.9) -/

/-- The attributes a REGION_STAGE carries. -/
def attrOf (enable : Byte) (base limit : BitVec 24) (rights attr : Byte) : RegAttr :=
  { enable := enable.getLsbD 0, rights := rights, saveClass := attr.extractLsb' 6 2, domain := attr.extractLsb' 3 3,
    hint := attr.extractLsb' 1 2, base := base, limit := limit }

/-- The word +0 layout of a region's attributes, bit [31] excluded (Table 6.6). -/
def attrWord (a : RegAttr) : Word :=
  BitVec.ofNat 32 ((if a.enable then 0x10000 else 0) + a.rights.toNat * 256 + a.saveClass.toNat * 64 + a.domain.toNat * 8
    + a.hint.toNat * 2)

/-- Whether an enabled region contains a 64 KiB unit (R253). -/
def RegAttr.covers (a : RegAttr) (unit : Nat) : Bool := a.enable && a.base.toNat ≤ unit && unit ≤ a.limit.toNat

/-- The governing region of a unit among attributes in region order: the lowest-numbered that covers it (R253). -/
def governing (l : List RegAttr) (unit : Nat) : Option (Nat × RegAttr) :=
  (l.zipIdx.find? (fun p => p.1.covers unit)).map (fun p => (p.2, p.1))

/-- The committed attributes in force. -/
def Dev.attrs (d : Dev) : List RegAttr := d.reg.regions.map (·.cur)

/-- The save class of a unit: 0 MUST, 1 SHOULD, 2 SPARE (R254). -/
def classIn (l : List RegAttr) (unit : Nat) : Nat :=
  match governing l unit with | some (_, a) => a.saveClass.toNat | none => 2

/-- The cipher domain of a unit (R254). -/
def domainIn (l : List RegAttr) (unit : Nat) : BitVec 3 :=
  match governing l unit with | some (_, a) => a.domain | none => 0

/-- The default hint of a unit (R254). -/
def hintIn (l : List RegAttr) (unit : Nat) : BitVec 2 :=
  match governing l unit with | some (_, a) => a.hint | none => 0

/-- Whether the governing region grants every right of a mask; no region, no rights (R254, Table 8.1). -/
def rightsIn (l : List RegAttr) (unit : Nat) (mask : Byte) : Bool :=
  match governing l unit with | some (_, a) => a.rights &&& mask = mask | none => false

/-- The rights a port's read or write needs: FA_R, FA_W, FB_R, FB_W (Table 5.9 byte 8). -/
def portRight (p : Port) (write : Bool) : Byte :=
  match p, write with
  | .fa, false => 0x01
  | .fa, true => 0x02
  | .fb, false => 0x04
  | .fb, true => 0x08

/-! ### Copy descriptors (Table 8.3); byte 0 is the most significant -/

/-- OP. -/
def Desc.op (x : Desc) : BitVec 4 := x.bits.extractLsb' 252 4
/-- NOTIFY. -/
def Desc.notify (x : Desc) : Bool := x.bits.getLsbD 251
/-- DST. -/
def Desc.dst (x : Desc) : Nat := (x.bits.extractLsb' 192 40).toNat
/-- SRC. -/
def Desc.src (x : Desc) : Nat := (x.bits.extractLsb' 128 40).toNat
/-- LENGTH in bytes. -/
def Desc.len (x : Desc) : Nat := (x.bits.extractLsb' 96 32).toNat * 64
/-- PAT_LEN in bytes. -/
def Desc.pat (x : Desc) : Nat := (x.bits.extractLsb' 64 32).toNat * 64
/-- VALUE. -/
def Desc.value (x : Desc) : BitVec 64 := x.bits.extractLsb' 0 64
/-- Chunks of the descriptor (R276). -/
def Desc.chunks (x : Desc) : Nat := (x.len + 65535) / 65536
/-- Destination offsets of chunk `k`: first and one past the last (R276). -/
def Desc.span (x : Desc) (k : Nat) : Nat × Nat := (65536 * k, min (65536 * (k + 1)) x.len)

/-- Whether two byte ranges overlap. -/
def overlaps (a n b m : Nat) : Bool := a < b + m && b < a + n

/-- Whether a descriptor's fields keep Table 8.3 and its ranges lie below the host-visible capacity (R273). -/
def Desc.valid (x : Desc) (visible : Nat) : Bool :=
  let rsv0 := x.bits.extractLsb' 248 3 = 0 && x.bits.extractLsb' 232 16 = 0 && x.bits.extractLsb' 168 24 = 0
  let copyLike := x.op = 2 || x.op = 3
  let reads := if x.op = 2 then x.len else if x.op = 3 then x.pat else 0
  1 ≤ x.op.toNat && x.op.toNat ≤ 5 && rsv0 && x.dst % 64 = 0 && x.src % 64 = 0 && x.len ≠ 0
    && (copyLike || x.src = 0)
    && (if x.op = 3 then x.pat ≠ 0 && x.pat ≤ x.len else x.pat = 0)
    && (x.op = 1 || x.value = 0)
    && x.dst + x.len ≤ visible && (!copyLike || x.src + reads ≤ visible)
    && (!copyLike || !overlaps x.src reads x.dst x.len)

/-- The source offset byte `i` of the destination is copied from (Table 8.4). -/
def Desc.source (x : Desc) (i : Nat) : Nat := if x.op = 3 then x.src + i % x.pat else x.src + i

/-- The bursts chunk `k` reads, in order without repeats (R276). -/
def Desc.readBursts (x : Desc) (k : Nat) : List Nat :=
  let (lo, hi) := x.span k
  let n := (hi - lo) / 64
  if x.op = 2 || x.op = 3 then ((List.range n).map (fun i => x.source (lo + 64 * i) / 64)).eraseDups
  else if x.op = 4 then (List.range n).map (fun i => (x.dst + lo) / 64 + i)
  else []

/-- The bursts chunk `k` writes. -/
def Desc.writeBursts (x : Desc) (k : Nat) : List Nat :=
  let (lo, hi) := x.span k
  if x.op = 4 then [] else (List.range ((hi - lo) / 64)).map (fun i => (x.dst + lo) / 64 + i)

/-- The byte a descriptor writes at destination offset `i`, given the bytes the chunk has read (Table 8.4). -/
def Desc.byteAt (x : Desc) (buffer : List Host.Cell) (i : Nat) : Byte :=
  if x.op = 1 then x.value.extractLsb' (8 * (7 - (x.dst + i) % 8)) 8
  else if x.op = 5 then 0
  else memRead buffer (x.source i)

/-! ### Rail slots and program steps (Tables 13.1, 13.3); byte 0 is the most significant -/

/-- USED. -/
def Slot.used (s : Slot) : Bool := s.entry.getLsbD 63
/-- SAVE_NEEDED. -/
def Slot.saveNeeded (s : Slot) : Bool := s.entry.getLsbD 62
/-- BLEED. -/
def Slot.bleed (s : Slot) : Bool := s.entry.getLsbD 61
/-- PG_USED. -/
def Slot.pgUsed (s : Slot) : Bool := s.entry.getLsbD 60
/-- VS_USED. -/
def Slot.vsUsed (s : Slot) : Bool := s.entry.getLsbD 59
/-- VS_GOOD_MIN. -/
def Slot.goodMin (s : Slot) : BitVec 12 := s.entry.extractLsb' 40 12
/-- VS_GOOD_MAX. -/
def Slot.goodMax (s : Slot) : BitVec 12 := s.entry.extractLsb' 24 12
/-- VS_OFF. -/
def Slot.offCode (s : Slot) : BitVec 12 := s.entry.extractLsb' 8 12

/-- A rail the sequence controls: USED and not BLEED. -/
def Slot.rail (s : Slot) : Bool := s.used && !s.bleed

/-- *Good* (R471). -/
def Slot.good (s : Slot) : Bool :=
  s.rail && (!s.pgUsed || s.pg) && (!s.vsUsed || (s.goodMin ≤ s.vs && s.vs ≤ s.goodMax))

/-- *Off* (R471). -/
def Slot.isOff (s : Slot) : Bool := if s.vsUsed then s.vs < s.offCode else !s.pg

/-- Whether RAIL_LOAD refuses a slot entry (R468). -/
def slotEntryBad (e : BitVec 64) : Bool :=
  let s : Slot := { Slot.reset with entry := e }
  e.extractLsb' 56 3 ≠ 0 || e.extractLsb' 52 4 ≠ 0 || e.extractLsb' 36 4 ≠ 0 || e.extractLsb' 20 4 ≠ 0
    || (s.used && !s.bleed && !s.pgUsed && !s.vsUsed)
    || (s.bleed && (s.saveNeeded || s.pgUsed || s.vsUsed))
    || s.goodMin > s.goodMax || !(s.offCode < s.goodMin)

/-- Whether RAIL_LOAD refuses a program step (R477). -/
def stepBad (w : Word) : Bool :=
  let op := w.extractLsb' 28 4
  if op = 0 then w.extractLsb' 0 28 ≠ 0
  else if op = 1 || op = 2 then w.extractLsb' 16 12 ≠ 0
  else if op = 3 then w.extractLsb' 24 4 ≠ 0
  else if op = 4 || op = 5 then w.extractLsb' 16 12 = 0
  else if op = 6 then 4 < (w.extractLsb' 24 4).toNat || w.extractLsb' 22 2 ≠ 0
  else if op = 7 then w.extractLsb' 22 6 ≠ 0 || w.extractLsb' 0 16 ≠ 0
  else if op = 8 then w.extractLsb' 4 24 ≠ 0
  else if op = 9 then w.extractLsb' 16 12 ≠ 0
  else true

/-- Whether RAIL_LOAD refuses a sequence header (R473). -/
def headerBad (w : Word) : Bool := 2 < (w.extractLsb' 24 8).toNat || w.extractLsb' 19 5 ≠ 0

/-- KIND of the sequence header. -/
def Rail.kind (r : Rail) : Nat := (r.header.extractLsb' 24 8).toNat
/-- RETRIES. -/
def Rail.retryLimit (r : Rail) : Nat := (r.header.extractLsb' 16 3).toNat
/-- VIN_MIN in units of 100 mV. -/
def Rail.vinMin (r : Rail) : Nat := (r.header.extractLsb' 0 8).toNat
/-- NEEDS of a dependency entry. -/
def Rail.needs (r : Rail) (s : Nat) : BitVec 16 := (r.deps.getD s 0).extractLsb' 48 16
/-- Slots of a mask, lowest first. -/
def maskSlots (m : BitVec 16) : List Nat := (List.range 16).filter (fun i => m.getLsbD i)

/-! ### Device address to DRAM location (R313, R314) -/

/-- A word from a number. -/
def wd (n : Nat) : Word := BitVec.ofNat 32 n

/-- The interleave code of a used-channel count (Table 6.3). -/
def waysOf (n : Nat) : Nat := if n = 1 then 0 else if n = 2 then 1 else 2

/-- The used channels in order (R313). -/
def Dev.usedChannels (d : Dev) : List Nat := (List.range 4).filter (fun c => d.dcfg.chUsed.getLsbD c)

/-- Capacity of one device in bytes by DENSITY code (R309): 2, 3, 4 and 8 GiB. -/
def deviceBytes (density : BitVec 2) : Nat :=
  (match density.toNat with | 0 => 2 | 1 => 3 | 2 => 4 | _ => 8) * 2 ^ 30

/-- Capacity of one rank: four data devices (R314). -/
def rankBytes (density : BitVec 2) : Nat := 4 * deviceBytes density

/-- Bytes of the interleave grain by INTLV_GRAIN (Table 6.3). -/
def grainBytes (g : BitVec 3) : Nat :=
  match g.toNat with
  | 0 => 256
  | 1 => 512
  | 2 => 1024
  | 3 => 4096
  | 4 => 16384
  | _ => 65536

/-- A DRAM location (Table 9.5). -/
structure Loc where
  channel : Nat
  rank : Nat
  bg : Nat
  bank : Nat
  row : Nat
  column : Nat
  deriving DecidableEq, Repr

/-- The geometry of the reference channel: ranks and density (R306). -/
def Dev.geometry (d : Dev) : Nat × BitVec 2 :=
  (d.dcfg.refRanks.toNat + 1, d.dcfg.refDensity)

/-- The channel address within a channel (Table 9.5). -/
def locIn (density : BitVec 2) (channel l : Nat) : Loc :=
  let r := rankBytes density
  let o := l % r
  let row := o / 2 ^ 17
  { channel := channel, rank := l / r, row := row, bank := o / 2 ^ 15 % 4, bg := Nat.xor (o / 2 ^ 12 % 8) (row % 8),
    column := o / 64 % 64 }

/-- The used-channel number and channel address of a device address (R313). -/
def interleave (ways grain cap a : Nat) : Nat × Nat :=
  let block := a / (ways * cap)
  let x := a % (ways * cap)
  let chunk := x / grain
  (block * ways + chunk % ways, chunk / ways * grain + x % grain)

/-- The DRAM location of a device address (R313, R314). -/
def Dev.locate (d : Dev) (a : Nat) : Loc :=
  let (ranks, density) := d.geometry
  let (h, l) := interleave (2 ^ d.dcfg.ways.toNat) (grainBytes d.dcfg.grain) (ranks * rankBytes density) a
  locIn density (d.usedChannels.getD h 0) l

/-- The channel of a burst. -/
def Dev.channelOf (d : Dev) (burst : Nat) : Nat := (d.locate (burst * 64)).channel

/-- Host-visible bytes (R310). -/
def Dev.visible (d : Dev) : Nat := d.dcfg.visibleMib.toNat * 2 ^ 20

/-- The channels a granule touches. -/
def Dev.granuleChannels (d : Dev) (g : Nat) : List Nat :=
  ((List.range 1024).map (fun i => d.channelOf (g * 1024 + i))).eraseDups

/-- The bursts of a granule. -/
def granuleBursts (g : Nat) : List Nat := (List.range 1024).map (fun i => g * 1024 + i)

/-- The keeper area in MiB of an installed capacity in MiB: the larger of 16 MiB and 1/1024, in whole 8 MiB (R310). -/
def keeperOf (installed : Nat) : Nat := max 16 ((installed + 8191) / 8192 * 8)

end Sys2Proof.Machine
end

