-- ==== Sys2Proof/Machine/Maps.lean ====
section
/-! DEFINITION. The granule map, the dirty counts, the slots of the flash log, and poisoning: the tables several units share. -/
namespace Sys2Proof.Machine
open Sys2Proof

/-! ### The granule map (Table 11.4) -/

/-- What an unlisted granule is: ZERO and clean (R421 stage 5). -/
def GEntry.zero : GEntry := { st := 2, taint := false, dirty := false, stale := false, genLo := 0, slot := 0 }

/-- The entry of a granule. -/
def mapGet : List (Nat × GEntry) → Nat → GEntry
  | [], _ => GEntry.zero
  | (k, v) :: t, g => if k = g then v else mapGet t g

/-- The map with one entry set; a ZERO clean entry is not listed. -/
def mapSet : List (Nat × GEntry) → Nat → GEntry → List (Nat × GEntry)
  | [], g, e => if e = GEntry.zero then [] else [(g, e)]
  | (k, w) :: t, g, e =>
    if g < k then (if e = GEntry.zero then (k, w) :: t else (g, e) :: (k, w) :: t)
    else if g = k then (if e = GEntry.zero then t else (g, e) :: t)
    else (k, w) :: mapSet t g e

/-- The working entry of a granule. -/
def Dev.entry (d : Dev) (g : Nat) : GEntry := mapGet d.img.gmap g

/-- Change the working entry of a granule. -/
def Dev.onEntry (d : Dev) (g : Nat) (f : GEntry → GEntry) : Dev :=
  { d with img := { d.img with gmap := mapSet d.img.gmap g (f (d.entry g)) } }

/-- The entry word of Table 11.4. -/
def GEntry.bits (e : GEntry) : BitVec 64 :=
  BitVec.ofNat 64 (e.st.toNat * 2 ^ 62 + (if e.taint then 2 ^ 61 else 0) + (if e.dirty then 2 ^ 60 else 0)
    + (if e.stale then 2 ^ 59 else 0) + e.genLo.toNat * 2 ^ 32 + e.slot.toNat)

/-- The entry a word of a map segment gives, with DIRTY = 0 as the loading leaves it (R421 stage 5). -/
def GEntry.ofBits (w : BitVec 64) : GEntry :=
  { st := w.extractLsb' 62 2, taint := w.getLsbD 61, dirty := false, stale := w.getLsbD 59, genLo := w.extractLsb' 32 24,
    slot := w.extractLsb' 0 32 }

/-- Granules with DIRTY = 1, ascending; none while the keeper area is deferred (R408, R424). -/
def Dev.dirtyList (d : Dev) : List Nat :=
  if d.img.deferred then [] else (d.img.gmap.filter (fun p => p.2.dirty)).map (·.1)

/-- Dirty granules of a save class under the attributes last counted by (R408). -/
def Dev.dirtyOf (d : Dev) (cls : Nat) : List Nat := d.dirtyList.filter (fun g => classIn d.reg.countBy g = cls)

/-- DIRTY_TOTAL. -/
def Dev.dirtyTotal (d : Dev) : Nat := d.dirtyList.length
/-- DIRTY_MUST. -/
def Dev.dirtyMust (d : Dev) : Nat := (d.dirtyOf 0).length
/-- DIRTY_SHOULD. -/
def Dev.dirtyShould (d : Dev) : Nat := (d.dirtyOf 1).length

/-- Mark a granule dirty (R407). -/
def Dev.setDirty (d : Dev) (g : Nat) : Dev := d.onEntry g (fun e => { e with dirty := true })

/-! ### The flash log (R396, R397) -/

/-- Targets present and not lost, as (channel, target) in order (R390, R661). -/
def Dev.targets (d : Dev) : List (Nat × Nat) :=
  (List.range 32).filterMap (fun i =>
    if d.img.targetMap.getLsbD i && !d.img.lost.getLsbD i then some (i / 4, i % 4) else none)

/-- Slots in a block group: planes times pages, four pages a slot (R395). -/
def groupSlots (g : FlashGeom) : Nat := g.planes * g.pagesPerBlock / 4
/-- Slots in a LUN. -/
def lunSlots (g : FlashGeom) : Nat := g.blockGroups * groupSlots g

/-- The address of slot `i` of a LUN (R396). -/
def slotAddr (channel target lun i : Nat) : Word :=
  BitVec.ofNat 32 (channel * 2 ^ 29 + target * 2 ^ 27 + lun * 2 ^ 25 + 4 * i)

/-- The first page of the block group that holds a page address. -/
def groupOf (g : FlashGeom) (a : Word) : Word :=
  let page := a.toNat % 2 ^ 25
  let per := 4 * groupSlots g
  BitVec.ofNat 32 (a.toNat - page + (if per = 0 then 0 else page / per * per))

/-- The system block groups of a copy, among those not bad: the first 8 of block groups 0 to 15 of LUN 0 of a channel's target 0
(R397). -/
def systemOf (g : FlashGeom) (bad : List Word) (channel : Nat) : List Word :=
  (((List.range 16).map (fun b => slotAddr channel 0 0 (b * groupSlots g))).filter (fun a => !bad.contains a)).take 8

/-- Whether a page address lies in a system block group. -/
def Dev.isSystem (d : Dev) (a : Word) : Bool := d.img.sys.contains (groupOf d.img.geom a)

/-- The target of a page address. -/
def targetOf (a : Word) : Nat × Nat := ((a.extractLsb' 29 3).toNat, (a.extractLsb' 27 2).toNat)

/-- Whether a page address lies on a lost target (R661). -/
def Dev.onLost (d : Dev) (a : Word) : Bool := d.img.lost.getLsbD (4 * (targetOf a).1 + (targetOf a).2)

/-- Slots of a target in system block groups. -/
def Dev.systemOn (d : Dev) (t : Nat × Nat) : Nat := (d.img.sys.filter (fun a => targetOf a = t)).length * groupSlots d.img.geom

/-- Slots of map segments being programmed. -/
def Dev.mapSlots (d : Dev) : List Word := d.img.ops.filterMap (fun o => match o.2 with | .mapSlot a _ => some a | _ => none)

/-- The lowest erased slot of a LUN from slot `i` on, trying `fuel` slots. -/
def findErased (d : Dev) (channel target lun : Nat) : Nat → Nat → Option Word
  | 0, _ => none
  | fuel + 1, i =>
    let a := slotAddr channel target lun i
    if lunSlots d.img.geom ≤ i then none
    else if d.isSystem a || d.img.retired.contains (groupOf d.img.geom a)
        || d.img.slots.any (fun s => s.addr = a) || d.img.copies.any (fun c => c.slot = a) || d.mapSlots.contains a
    then findErased d channel target lun fuel (i + 1)
    else some a

/-- The lowest erased slot of a target. -/
def Dev.erasedOn (d : Dev) (t : Nat × Nat) : Option Word :=
  let skip := d.systemOn t + d.img.slots.length + d.img.copies.length + d.mapSlots.length
    + d.img.retired.length * groupSlots d.img.geom + 1
  (List.range d.img.geom.luns).findSome? (fun lun => findErased d t.1 t.2 lun skip 0)

/-- Copies in flight on a target (R546). -/
def Dev.inFlight (d : Dev) (t : Nat × Nat) : Nat :=
  (d.img.copies.filter (fun c => targetOf c.slot = t)).length
    + (d.img.ops.filter (fun o => match o.2 with | .restoreRead _ k => (k / 4, k % 4) = t | _ => false)).length

/-- The erased slot Mule uses next: on the target with the fewest granules in flight, below two, the lowest channel and
then the lowest target first (R546; log entry 19). -/
def Dev.nextSlot (d : Dev) : Option Word :=
  let try_ := fun n => d.targets.findSome? (fun t => if d.inFlight t = n then d.erasedOn t else none)
  match try_ 0 with
  | some a => some a
  | none => try_ 1

/-- FREE_SLOTS: erased slots ready for writing on targets that are not lost (R417, R661). -/
def Dev.freeSlots (d : Dev) : Nat :=
  let g := d.img.geom
  let total := (d.targets.map (fun t => g.luns * lunSlots g - d.systemOn t)).foldl (· + ·) 0
  let onLive := fun (a : Word) => d.targets.contains (targetOf a)
  total - (d.img.slots.filter (fun s => onLive s.addr && !d.img.retired.contains (groupOf g s.addr))).length
    - (d.img.copies.filter (fun c => onLive c.slot)).length - (d.mapSlots.filter onLive).length
    - (d.img.retired.filter onLive).length * groupSlots g

/-- Map segments of the host-visible granules (R401). -/
def Dev.segments (d : Dev) : Nat := (d.dcfg.granules.toNat + 2047) / 2048

/-- The granule bound of a SAVE (R418). -/
def Dev.flashBound (d : Dev) : Nat := d.freeSlots - (d.segments + 1 + 3) / 4 - 16

/-- Whether an image found at STARTUP has been neither restored nor discarded (R28, R273, R406). -/
def Dev.awaits (d : Dev) : Bool := (d.img.state = 1 && !d.img.flags.getLsbD 2) || d.img.state = 2

/-- P, the usable log capacity in GiB (R414), here as a count of slots of 64 KiB. -/
def Dev.logSlots (d : Dev) : Nat :=
  let g := d.img.geom
  ((List.range 32).filter (fun i => d.img.targetMap.getLsbD i)).foldl
    (fun acc i => acc + g.luns * lunSlots g - d.systemOn (i / 4, i % 4)) 0
    - d.img.retired.length * groupSlots g

/-- Count pages programmed against the wear allowance (the governor's sum of R414). -/
def Dev.wrote (d : Dev) (pages : Nat) : Dev :=
  { d with img := { d.img with usedPages := d.img.usedPages + pages, lifePages := d.img.lifePages + pages } }

/-! ### Poisoning (R457 to R459) -/

/-- Whether a granule is poisoned. -/
def Dev.poisoned (d : Dev) (g : Nat) : Bool := d.cip.poison.any (fun p => p.granule = g)

/-- Put an entry into the poison list, in granule order. -/
def poisonInsert (p : Poison) : List Poison → List Poison
  | [] => [p]
  | q :: t => if p.granule < q.granule then p :: q :: t else if p.granule = q.granule then p :: t else q :: poisonInsert p t

/-- Table entries in use, of 16 384 (R459). -/
def poisonEntries (l : List Poison) : Nat := (l.filter (fun p => p.cover.isSome)).length

/-- Poison a granule, anew or again (R458, R459). -/
def Dev.poison (d : Dev) (g : Nat) : Dev :=
  match d.cip.poison.find? (fun p => p.granule = g) with
  | some p => { d with cip := { d.cip with poison := poisonInsert { p with cover := p.cover.map (fun _ => 0) } d.cip.poison } }
  | none =>
    if poisonEntries d.cip.poison < 16384 then
      { d with cip := { d.cip with poison := poisonInsert { granule := g, cover := some 0 } d.cip.poison } }
    else
      ({ d with cip := { d.cip with poison := poisonInsert { granule := g, cover := none } d.cip.poison } }).emit 0x0D08 g

/-- The list after a table entry has come free: it goes to the lowest-indexed poisoned granule without one (R459). -/
def poisonPromote : List Poison → List Poison
  | [] => []
  | p :: t => if p.cover.isNone then { p with cover := some 0 } :: t else p :: poisonPromote t

/-- A covering write of one burst has been applied (R458). -/
def Dev.cover (d : Dev) (burst : Nat) : Dev :=
  let g := burst / 1024
  match d.cip.poison.find? (fun p => p.granule = g) with
  | some { granule := _, cover := some c } =>
    let c' := c ||| ((1 : BitVec 1024) <<< (burst % 1024))
    if c' = BitVec.allOnes 1024 then
      ({ d with cip := { d.cip with poison := poisonPromote (d.cip.poison.filter (fun p => p.granule ≠ g)) } }).emit 0x0D07 g
    else
      { d with cip := { d.cip with poison := poisonInsert { granule := g, cover := some c' } d.cip.poison } }
  | _ => d

end Sys2Proof.Machine
end

