-- ==== Sys2Proof/Machine/Flags.lean ====
section
/-! DEFINITION. Every flag and status the spec computes from other state: link and image words, the charger's and the store's
figures, TOP_FAULT, the beacon and the status pages, OLDEST_LIVE, the wear allowance and the life consumed. -/
namespace Sys2Proof.Machine
open Sys2Proof

/-- A bit as a number. -/
def bit (b : Bool) (n : Nat) : Nat := if b then 2 ^ n else 0

/-- A temperature in whole degrees as an 8-bit signed field shows it (T_DIE, T_TDn, T_MAX_SEEN, Table 6.15); what the field shows of one
that it cannot hold is free (log entry 23). -/
def tempByte (t : Int) : BitVec 8 := if -128 ≤ t ∧ t ≤ 127 then BitVec.ofInt 8 t else Config.hotByte t

/-! ### Epochs (R266, R267) -/

/-- The epochs under which work is live: admitted requests until decided, and chunks in progress. -/
def Dev.liveEpochs (d : Dev) : List Word :=
  ((d.fa.inflight ++ d.fb.inflight).filter (fun f => f.code.isNone)).map (·.epoch)
    ++ (d.ce.filter (fun c => c.job.isSome)).map (·.jobEpoch)

/-- OLDEST_LIVE: the oldest live epoch of EPOCH - 7 to EPOCH, or EPOCH (R267). -/
def Dev.oldestLive (d : Dev) : Word :=
  d.liveEpochs.foldl (fun acc e => if (d.reg.epoch - acc).toNat < (d.reg.epoch - e).toNat then e else acc) d.reg.epoch

/-! ### The energy store (R470, R491, R497, R501) -/

/-- The store current in units of 0.5 mA: twice (ICHG_CODE - 1 800) × 2.5 mA (R470). -/
def Dev.store5 (d : Dev) : Int := ((d.adc.ichg.toNat : Int) - 1800) * 5

/-- The terminal voltage in µV: VSTORE_CODE × VSTORE_SCALE. -/
def Dev.vTerm (d : Dev) : Nat := d.adc.vstore.toNat * d.egy.vstoreScale.toNat

/-- V_oc in µV: the terminal voltage minus the store current × ESR (R491); ESR is in units of 0.1 mΩ. -/
def Dev.vOc (d : Dev) : Nat := ((d.vTerm : Int) - d.store5 * (d.egy.esr.toNat : Int) / 20).toNat

/-- A field of R491 is 0. -/
def Dev.unconfigured (d : Dev) : Bool :=
  d.egy.vFull = 0 || d.egy.vFloor = 0 || d.egy.vinScale = 0 || d.egy.vstoreScale = 0

/-- The energy in mJ between a voltage of `s / n` µV and the SAVE floor in mV, rounded down (R497). -/
def energyAt (capMf s n floor : Nat) : Nat := capMf * (s * s - (floor * 1000 * n) * (floor * 1000 * n)) / (2000000000000 * n * n)

/-- E_AVAIL (R497): V is the mean of the last 100 values of V_oc, capped at V_FULL_MV. -/
def Dev.eAvailNow (d : Dev) : Nat :=
  let n := d.adc.vocs.length
  let s := d.adc.vocs.foldl (· + ·) 0
  if d.egy.capMf = 0 || d.unconfigured || n = 0 then 0
  else energyAt d.egy.capMf.toNat (min s (d.egy.vFull.toNat * 1000 * n)) n d.egy.vFloor.toNat

/-- The granules an energy can save (R501). -/
def budgetOf (e fixed pj : Nat) : Nat := if pj = 0 then 0 else (e - fixed) * 10 ^ 9 / (pj * 65536)

/-- E_FULL (R499). -/
def Dev.eFull (d : Dev) : Nat :=
  if d.egy.capMf = 0 || d.unconfigured then 0 else energyAt d.egy.capMf.toNat (d.egy.vFull.toNat * 1000) 1 d.egy.vFloor.toNat

/-- The energy manager is unable (R498). -/
def Dev.unable (d : Dev) : Bool :=
  d.egy.capMf = 0 || d.unconfigured || d.egy.charger = .fault || d.ctl.safeholdCauses.getLsbD 2

/-- E_RESERVE in units of 10^-9 mJ, and E_AVAIL at or below it (R550). -/
def Dev.reserveReached (d : Dev) : Bool :=
  let f := 2 * d.targets.length
  let slots := (d.segments + 1 + 3) / 4 + f
  d.egy.eAvail.toNat * 10 ^ 9 ≤ d.egy.costFixed.toNat * 10 ^ 9 + slots * 65536 * d.egy.costPj.toNat

/-! ### The wear governor and the histogram (R414, R657) -/

/-- Weights of Table 11.7 in hundredths. -/
def wearWeights : List Nat := [100, 100, 100, 100, 90, 80, 70, 60]

/-- Σ w × HIST and Σ HIST. -/
def wearSums (hist : List Word) : Nat × Nat :=
  ((List.zipWith (fun w (h : Word) => w * h.toNat) wearWeights hist).foldl (· + ·) 0, (hist.map (·.toNat)).foldl (· + ·) 0)

/-- ALLOW_DAY_MIB (R414): P in slots of 64 KiB, pages of 16 KiB written. -/
def allowanceMib (slots rated lifePages days : Nat) (hist : List Word) : Nat :=
  let (wn, hn) := wearSums hist
  -- LIFE_BUDGET in units of 1/16 MiB granules times 1000
  let num := slots * rated * 8 * (if hn = 0 then 100 else wn)
  let den := 10 * 100 * (if hn = 0 then 1 else hn)
  let life := lifePages
  -- (LIFE_BUDGET - LIFE_WRITTEN) in granules of 64 KiB scaled by 4 den
  (4 * num - life * den) / (4 * den * 16 * max 1 (5475 - days))

/-- LIFE_WRITTEN_GIB: pages of 16 KiB in whole GiB. -/
def Img.lifeGib (i : Img) : Nat := i.lifePages / 65536
/-- USED_DAY_MIB. -/
def Img.usedMib (i : Img) : Nat := i.usedPages / 64

/-- LIFE_WRITTEN_GIB, a whole number of GiB, has reached LIFE_BUDGET (R416). -/
def Dev.lifeSpent (d : Dev) : Bool :=
  let (wn, hn) := wearSums d.therm.hist
  d.logSlots * d.img.ratedInUse.toNat * 8 * (if hn = 0 then 100 else wn) * 4 ≤ d.img.lifeGib * 65536 * (10 * 100 * (if hn = 0 then 1 else hn))

/-- The histogram bin of a temperature (Table 6.15). -/
def histBin (t : Int) : Nat :=
  if t < 45 then 0 else if t < 65 then 1 else if t ≤ 85 then 2 else if t < 105 then 3 else if t < 115 then 4
  else if t < 125 then 5 else if t < 140 then 6 else 7

/-- Ageing factors of Table 19.13 in hundredths. -/
def ageFactors : List Nat := [2, 8, 30, 100, 174, 294, 618, 983]

/-- The life consumed in hundredths of an equivalent hour times 60 (R657). -/
def lifeConsumed6000 (hist : List Word) : Nat :=
  (List.zipWith (fun a (h : Word) => a * h.toNat) ageFactors hist).foldl (· + ·) 0

/-- Whether the life consumed keeps the rating of R657: at most 249 662 equivalent hours. -/
def lifeWithin (hist : List Word) : Bool := lifeConsumed6000 hist ≤ 249662 * 6000

/-- SCRUB_INTERVAL of the highest T_DIE over 24 h (Table 11.8). -/
def scrubHoursOf (t : Int) : BitVec 16 :=
  if t < 85 then 168 else if t < 105 then 72 else if t < 125 then 24 else if t < 140 then 8 else 4

/-! ### Image words (Tables 5.12, 5.13) -/

/-- IMAGE_INFO W0. -/
def Dev.imageWord (d : Dev) : Word := BitVec.ofNat 32 (d.img.state.toNat * 2 ^ 24 + d.img.flags.toNat)

/-- IMAGE_INFO W0 to W7; W1 to W7 read 0 while IMAGE_UNKNOWN (R169). -/
def Dev.imageInfo (d : Dev) : List Word :=
  if d.img.state = 0xFF then [d.imageWord, 0, 0, 0, 0, 0, 0, 0]
  else [d.imageWord, d.img.generation, d.img.granules, d.img.unsaved, d.img.tainted, d.img.rekeyBoundary,
    d.img.commitCause.setWidth 32, d.img.escrowCheck]

/-- KEY_STATUS W0 (R170). -/
def Dev.keySummary (d : Dev) : Word :=
  BitVec.ofNat 32 (bit d.cip.escrow.isSome 31 + bit d.cip.bound 30 + d.cip.rekeyActive.toNat * 2 ^ 16 + d.cip.keyed.toNat * 2 ^ 9)

/-- IDENT W0 to W3 (Table 5.5). -/
def Dev.identWords (d : Dev) : List Word :=
  [0x4E527240, 0x01004101, d.ident.serial.extractLsb' 32 32, d.ident.serial.extractLsb' 0 32]

/-- MODE and STARTUP_STEP as the Ledger reports them: step 0x6 outside STARTUP (Table 2.1). -/
def Dev.stepCode (d : Dev) : Nat := if d.ctl.mode = .startup then d.ctl.step.code else 6

/-! ### Rooster's view (Tables 17.3 to 17.6) -/

/-- CHARGER_STATE codes (R492). -/
def Charger.code : Charger → Nat
  | .off => 0
  | .charging => 1
  | .full => 2
  | .bleed => 3
  | .test => 4
  | .fault => 5
  | .unconfigured => 6

/-- TOP_FAULT (Table 17.4). -/
def Dev.topFaultNow (d : Dev) : Byte :=
  if d.img.flags.getLsbD 1 then 0x10
  else if d.ctl.mode = .startup && d.ctl.step = .halted then 0x11
  else if d.rail.faultValid then 0x12
  else if !d.img.usable && d.img.state ≠ 0xFF then 0x20
  else if d.img.state = 3 then 0x21
  else if d.img.state = 2 then 0x22
  else if d.ctl.safeholdCauses.getLsbD 2 then 0x30
  else if d.egy.charger = .fault then 0x31
  else if d.ctl.safeholdCauses.getLsbD 1 then 0x40
  else if d.mc.any (·.frozen) then 0x41
  else if d.ctl.safeholdCauses ≠ 0 then 0x42
  else if d.therm.active then 0x50
  else if d.clk.hoscOut then 0x51
  else if d.img.flags.getLsbD 0 then 0x60
  else 0

/-- Save progress in percent (R540). -/
def Dev.saveProgress (d : Dev) : Nat :=
  if d.sav.phase < 3 then 0
  else if d.sav.phase = 3 then (if d.sav.setSize = 0 then 100 else d.sav.finished * 100 / d.sav.setSize)
  else 100

/-- Granules restored in the RESTORE in progress. -/
def Dev.restored (d : Dev) : Nat := d.rst.total - d.rst.unrestored.length

/-- The restored share in percent (R593, Table 17.3). -/
def Dev.restorePercent (d : Dev) : Nat := if d.rst.total = 0 then 100 else d.restored * 100 / d.rst.total

/-- PROGRESS of the beacon (Table 17.3). -/
def Dev.progress (d : Dev) : Nat :=
  match d.ctl.mode with
  | .save => d.saveProgress
  | .restore => d.restorePercent
  | _ => 0xFF

/-- The beacon frame with its CRC (Table 17.3). -/
def Dev.beaconFrame (d : Dev) : List Byte :=
  let step := match d.ctl.mode with | .startup => d.ctl.step.code | .save => d.sav.phase.toNat | _ => 0
  let body : List Byte := [0x10, d.roo.shortId.extractLsb' 8 8, d.roo.shortId.extractLsb' 0 8,
    BitVec.ofNat 8 (d.ctl.mode.code * 32 + bit d.roo.alarm 4 + step), BitVec.ofNat 8 d.progress, d.topFaultNow]
  body ++ [crc8 body]

/-- DATA bytes of a status page (Table 17.6). -/
def Dev.statusData (d : Dev) (page : Nat) : List Byte :=
  let b := fun (n : Nat) => BitVec.ofNat 8 n
  match page with
  | 0 => [0x72, 0x40, 0x41, 0x01] ++ wordBytes (d.ident.serial.extractLsb' 0 32)
  | 1 => [d.img.state, d.img.flags] ++ wordBytes d.img.generation
      ++ [b (d.herd.st.toNat * 16 + bit d.herd.joined 0), b (bit d.ctl.saveArmed 0)]
  | 2 =>
    let e := (satBits 16 (d.egy.eAvail.toNat / 1000)).toNat
    let v := (satBits 16 (d.vTerm / 10000)).toNat
    [b (e / 256), b e, b (v / 256), b v, tempByte d.therm.tDie, tempByte d.therm.tMax, b d.egy.charger.code,
      b (d.adm.mode.toNat + bit d.adm.holding 7)]
  | _ =>
    let n := d.dirtyTotal
    [d.topFaultNow, b (bit d.rail.faultValid 7 + d.rail.faultRail.toNat), d.ctl.safeholdCauses.extractLsb' 0 8,
      d.rail.snapTotal.extractLsb' 8 8, d.rail.snapTotal.extractLsb' 0 8, b (n / 65536), b (n / 256), b n]

/-- The status page frame with its CRC (Table 17.2). -/
def Dev.statusFrame (d : Dev) (page : Nat) : List Byte :=
  let body : List Byte := [0x20, d.roo.shortId.extractLsb' 8 8, d.roo.shortId.extractLsb' 0 8, BitVec.ofNat 8 page] ++ d.statusData page
  body ++ [crc8 body]

/-- The pattern bits of a frame: leader, data bits, trailer mark (Table 17.1), one bit a unit. -/
def frameBits (bytes : List Byte) : List Bool :=
  List.replicate 8 true ++ List.replicate 4 false
    ++ bytes.flatMap (fun b => (List.range 8).flatMap (fun i =>
        if b.getLsbD (7 - i) then [true, false, false, false] else [true, false]))
    ++ [true]

/-- The pattern memory with bits written from bit `n` upward (R601). -/
def patternPut (p : BitVec 4096) (n : Nat) (bits : List Bool) : BitVec 4096 :=
  bits.zipIdx.foldl (fun (acc : BitVec 4096) (bi : Bool × Nat) =>
    let m : BitVec 4096 := (1 : BitVec 4096) <<< (4095 - (n + bi.2))
    if bi.1 then acc ||| m else acc &&& ~~~m) p

/-- Pattern byte `i`. -/
def patternByte (p : BitVec 4096) (i : Nat) : Byte := p.extractLsb' (8 * (511 - i)) 8

/-- The carrier period and its sink cycles (R601). -/
def carrier (khz : Byte) (duty : Bool) : Nat × Nat :=
  let k := khz.toNat
  let period := if k = 0 then 0 else (2 * 400000 + k) / (2 * k)
  (period, if duty then period / 3 else period / 4)

/-! ### Herd readiness (Table 14.2, R515, R516) -/

/-- Whether a joined device is ready in its herd state. -/
def Dev.herdReady (d : Dev) : Bool :=
  match d.herd.waitFor with
  | some t => d.herd.st ≠ t
  | none =>
    if d.ctl.mode = .startup || d.ctl.mode = .unpowered then false
    else
      let up := d.ctl.mode = .operate || d.ctl.mode = .restore || d.ctl.mode = .safehold
      let s := d.herd.st.toNat
      if s ≤ 6 || s = 9 then up
      else if s = 8 then d.ctl.mode ≠ .save || d.sav.committed || d.sav.abandoned || d.sav.resume.isSome
      else true

end Sys2Proof.Machine
end

