-- ==== Sys2Proof/Machine/Hen.lean ====
section
/-! DEFINITION. The periodic tasks' catch-up rule, the command records of a channel, and the Hen: refresh units owed and paid,
self-refresh, the channel's data rate, and the clock switch (R50 to R55, R328 to R333, R361, R380). -/
namespace Sys2Proof.Machine
open Sys2Proof

/-! ### Periodic tasks (R50 to R54) -/

/-- Periodic tasks get their anchor when they first become active after STARTUP (R50). -/
def Dev.anchorTask (d : Dev) (t : Nat) : Dev :=
  d.onTask t (fun k => if k.anchor.isNone then { k with anchor := some d.ctl.uptimeMs } else k)

/-- Task code and channel of task `t` (Table 2.6), the parameter of TASK_LATE and TASK_CAUGHT_UP. -/
def taskParam (t : Nat) : Nat := if t < 8 then packBytes [(1, t / 4), (1, t % 4)] else packBytes [(1, t - 6), (1, 0)]

/-- A task is behind; TASK_LATE when it was not (R52). -/
def Dev.taskBehind (d : Dev) (t : Nat) : Dev :=
  let d1 := d.onTask t (fun k => { k with behind := true })
  if (d.task t).behind then d1 else d1.emit 0x0150 (taskParam t)

/-- A due time passes with its instance unstarted (R52). -/
def Dev.taskMissed (d : Dev) (t : Nat) : Dev := (d.onTask t (fun k => { k with missed := k.missed + 1 })).taskBehind t

/-- An instance on time ends the catch-up (R52). -/
def Dev.taskCaughtUp (d : Dev) (t : Nat) : Dev :=
  if (d.task t).behind then (d.onTask t (fun k => { k with behind := false })).emit 0x0151 (taskParam t) else d

/-- An instance of a task starts (R51, R52, R54): late when its due time has passed; one that SAVE stopped is counted at most
once. -/
def Dev.taskStart (d : Dev) (t : Nat) : Dev :=
  let k := d.task t
  if k.restart = some true then d.onTask t (fun k => { k with restart := none })
  else if 0 < k.missed then
    d.onTask t (fun k => { k with restart := none, missed := k.missed - 1, late := satInc k.late, behind := true, startedLate := true })
  else (d.onTask t (fun k => { k with restart := none, startedLate := false })).taskCaughtUp t

/-- An instance stops at an entry to SAVE: it counts as not started (R54). -/
def Dev.taskStopped (d : Dev) (t : Nat) : Dev := d.onTask t (fun k => { k with restart := some (k.restart.getD k.startedLate) })

/-! ### Command records (Table 10.3) -/

/-- A record of a command. -/
def cmdRecord (cmd rank bg bank : Nat) (ap : Bool) (row column who : Nat) : Word × Word :=
  (wd (cmd * 2 ^ 28 + rank % 4 * 2 ^ 26 + bg % 8 * 2 ^ 23 + bank % 4 * 2 ^ 21 + bit ap 20 + row % 2 ^ 18),
    wd (column % 64 * 2 ^ 26 + who % 32 * 2 ^ 21))

/-- The newest 64 commands with one more. -/
def Mc.log (m : Mc) (r : Word × Word) : Mc := { m with commands := (r :: m.commands).take 64 }

/-- A command of the channel itself to a rank: requester 22, no row and no column (Table 10.3). -/
def Mc.own (m : Mc) (cmd rank : Nat) : Mc := m.log (cmdRecord cmd rank 0 0 false 0 0 22)

/-- The ranks of a channel. -/
def Mc.rankList (m : Mc) : List Nat := List.range (m.ranks.toNat + 1)

/-- A command of the channel itself to every rank. -/
def Mc.ownAll (m : Mc) (cmd : Nat) : Mc := m.rankList.foldl (fun m r => m.own cmd r) m

/-! ### Refresh management that JESD79-5 asks for (R361; log entry 32) -/

/-- Activates of the banks that `hit` selects count less by their rank's need: a refresh or refresh-management command. -/
def Mc.raaDown (m : Mc) (hit : Nat → Nat → Nat → Bool) : Mc :=
  { m with raa := (m.raa.map (fun (k : Nat × Nat × Nat × Nat) =>
      if hit k.1 k.2.1 k.2.2.1 then (k.1, k.2.1, k.2.2.1, k.2.2.2 - m.rfm.getD k.1 0) else k)).filter (fun k => k.2.2.2 ≠ 0) }

/-- An ACT counts toward its bank's need, on a rank whose devices report one. -/
def Mc.raaUp (m : Mc) (rank bg bank : Nat) : Mc :=
  if m.rfm.getD rank 0 = 0 then m
  else
    let here := fun (k : Nat × Nat × Nat × Nat) => k.1 = rank && k.2.1 = bg && k.2.2.1 = bank
    let n := match m.raa.find? here with | some k => k.2.2.2 | none => 0
    { m with raa := m.raa.filter (fun k => !here k) ++ [(rank, bg, bank, n + 1)] }

/-- The bank needs refresh management before its next ACT. -/
def Mc.raaNeed (m : Mc) (rank bg bank : Nat) : Bool :=
  m.raa.any (fun k => k.1 = rank && k.2.1 = bg && k.2.2.1 = bank && 0 < m.rfm.getD rank 0 && m.rfm.getD rank 0 ≤ k.2.2.2)

/-- RFMsb for that need: it acts on the bank index in every bank group, and RFM_ISSUED does not count it. -/
def Mc.manage (m : Mc) (rank bg bank : Nat) : Mc :=
  (m.raaDown (fun r _ b => r = rank && b = bank)).log (cmdRecord 8 rank bg bank false 0 0 22)

/-! ### Refresh units (R328 to R332) -/

/-- Owed units that force a refresh (R331). -/
def Dev.forceAt (d : Dev) : Nat := if d.ctl.mode = .save then 3 else 6
/-- The postponement limit (Table 9.7). -/
def Dev.oweLimit (d : Dev) : Nat := if d.ctl.mode = .save then 4 else 8

/-- A unit of a rank has been issued: the oldest one owed. -/
def Mc.paid (m : Mc) (rank : Nat) : Mc :=
  let owed := listUpd m.owed rank (fun n => n - 1)
  { m with
    owed := owed, overdue := listUpd m.overdue rank (fun n => n - 1), bankDone := listUpd m.bankDone rank (fun _ => 0)
    forced := if owed.getD rank 0 = 0 then listUpd m.forced rank (fun _ => false) else m.forced }

/-- A refresh unit of a rank is issued: an instance of task 0, late after its due time; the catch-up ends with a unit on time
while no rank holds a late one (R51, R53, R332). -/
def Dev.payUnit (d : Dev) (c rank : Nat) : Dev :=
  let d1 := d.onChan c (fun m => m.paid rank)
  if 0 < (d.chan c).overdue.getD rank 0 then d1.onTask c (fun k => { k with late := satInc k.late, behind := true })
  else if (d1.chan c).overdue.all (· = 0) then d1.taskCaughtUp c
  else d1

/-- A unit becomes owed; one beyond the postponement limit is a due time passed (R332). -/
def Dev.oweUnit (d : Dev) (c rank : Nat) : Dev :=
  let n := (d.chan c).owed.getD rank 0 + 1
  let late := d.oweLimit < n
  let d1 := d.onChan c (fun m => { m with
    owed := listUpd m.owed rank (fun _ => n)
    overdue := if late then listUpd m.overdue rank (fun k => k + 1) else m.overdue
    forced := if d.forceAt ≤ n then listUpd m.forced rank (fun _ => true) else m.forced })
  if late then d1.taskBehind c else d1

/-- The bank indices of a rank that the unit in progress still lacks, or all of them at once with REFab. -/
def Mc.unitCommands (m : Mc) (rank : Nat) : Mc :=
  let done := m.bankDone.getD rank 0
  if done = 0 then (m.raaDown (fun r _ _ => r = rank)).own 6 rank
  else ((List.range 4).filter (fun b => !done.getLsbD b)).foldl
    (fun (m : Mc) b => (m.raaDown (fun r _ k => r = rank && k = b)).log (cmdRecord 7 rank 0 b false 0 0 22)) m

/-- Issue `n` owed units of a rank back to back. -/
def Dev.payAll (d : Dev) (c rank : Nat) : Nat → Dev
  | 0 => d
  | n + 1 => ((d.onChan c (fun m => m.unitCommands rank)).payUnit c rank).payAll c rank n

/-- Close every row of a rank with PREab (R324). -/
def Mc.closeRank (m : Mc) (rank : Nat) : Mc :=
  if m.openRows.any (fun o => o.rank = rank) then ({ m with openRows := m.openRows.filter (fun o => o.rank ≠ rank) }).own 5 rank else m

/-- Close every row of the channel. -/
def Mc.closeAll (m : Mc) : Mc := m.rankList.foldl (fun m r => m.closeRank r) { m with openRows := m.openRows.filter (fun o => o.rank ≤ m.ranks.toNat) }

/-- Owed units of a channel, rank by rank, all issued. -/
def Dev.payOwed (d : Dev) (c : Nat) : Dev := (d.chan c).rankList.foldl (fun d r => d.payAll c r ((d.chan c).owed.getD r 0)) d

/-! ### Self-refresh, data rate and clock switch (R33, R333) -/

/-- The channel's devices have been initialised and are refreshed. -/
def Mc.awake (m : Mc) : Bool := m.used && !m.offline && !m.selfRefresh && 3 ≤ m.stage

/-- Every owed unit is issued, every row closed, and every rank enters self-refresh (R324, R333). -/
def Dev.chanSleep (d : Dev) (c : Nat) : Dev :=
  if (d.chan c).awake then ((d.onChan c Mc.closeAll).payOwed c).onChan c (fun m => { m.ownAll 12 with selfRefresh := true }) else d

/-- Every rank leaves self-refresh (R333). -/
def Dev.chanWake (d : Dev) (c : Nat) : Dev :=
  if (d.chan c).selfRefresh then d.onChan c (fun m => { (m.ownAll 13).ownAll 11 with selfRefresh := false }) else d

/-- A change of a channel's data rate, to 3200 MT/s on point 1 or to the OPERATE rate, with every rank in self-refresh (R333);
during a clock switch they are there already. -/
def Dev.chanRate (d : Dev) (c : Nat) (point1 : Bool) : Dev :=
  let m := d.chan c
  if m.onPoint1 = point1 || !m.used || m.offline then d
  else
    let d1 := (d.chanSleep c).onChan c (fun m => { m with onPoint1 := point1 })
    if m.selfRefresh then d1 else d1.chanWake c

/-- Every channel at 3200 MT/s on point 1, or back at the OPERATE rate (R34, R356, R542). -/
def Dev.onPoint1 (d : Dev) (b : Bool) : Dev := (List.range 4).foldl (fun d c => d.chanRate c b) d

/-- Every channel in self-refresh. -/
def Dev.allSleep (d : Dev) : Dev := (List.range 4).foldl (fun d c => d.chanSleep c) d
/-- Every channel out of self-refresh. -/
def Dev.allWake (d : Dev) : Dev := (List.range 4).foldl (fun d c => d.chanWake c) d

/-- Begin a switch of the data plane's clock, to HOSC or to REFCLK (R33), with every rank in self-refresh (R333). -/
def Dev.clkSwitch (d : Dev) (hosc : Bool) : Dev :=
  { d.allSleep with clk := { d.clk with switching := true, target := hosc } }

end Sys2Proof.Machine
end

