-- ==== Sys2Proof/Machine/Modes.lean ====
section
/-! DEFINITION. The shared operations of the mode machine: fault snapshots, closing the path, taking a port down, entering
SAVE and SAFEHOLD, the sequenced shutdown, the resets, freezing a channel, the herd cut and the entry to OPERATE. -/
namespace Sys2Proof.Machine
open Sys2Proof

/-! ### Fault snapshots (R488, R489) -/

/-- Codes of SEQ_STATE (Table 13.4). -/
def SeqState.code : SeqState → Nat
  | .empty => 0
  | .loaded => 1
  | .running => 2
  | .retryDown => 3
  | .retryWait => 4
  | .up => 5
  | .shutdown => 6
  | .halted => 7

/-- Word 0x0E10 [31:28], [21:16], [10:8] (Table 6.11). -/
def Dev.seqWord (d : Dev) : Nat := d.rail.st.code * 2 ^ 28 + d.rail.pc % 64 * 2 ^ 16 + d.rail.retries.toNat * 2 ^ 8

/-- Word 0x1101: T_TD0 to T_TD3. -/
def Dev.tdWord (d : Dev) : Word := (d.therm.td.take 4).foldl (fun (w : Word) t => (w <<< 8) ||| (tempByte t).setWidth 32) 0

/-- A mask with bit `i` set where `f i` holds, for 16 slots. -/
def slotMask (f : Nat → Bool) : Nat := (List.range 16).foldl (fun acc i => acc + bit (f i) i) 0

/-- The 32 words of a snapshot with its cause and slot (Table 13.7). -/
def Dev.snapshotWords (d : Dev) (cause slot : Nat) : List Word :=
  let w := fun (n : Nat) => BitVec.ofNat 32 n
  let total := (satInc d.rail.snapTotal).toNat
  let body : List Word :=
    [w (cause * 2 ^ 24 + slot * 2 ^ 20 + d.ctl.mode.code * 2 ^ 17 + d.stepCode * 2 ^ 13), w (total % 65536 * 65536),
      w d.ctl.uptimeMs, d.eu.stateSeq]
    ++ (List.range 8).map (fun k => w ((d.slot (2 * k)).vs.toNat * 65536 + (d.slot (2 * k + 1)).vs.toNat))
    ++ [w (d.adc.vin.toNat * 65536 + d.adc.vstore.toNat), w (d.adc.ichg.toNat * 65536), w ((tempByte d.therm.tDie).toNat * 2 ^ 24),
      d.tdWord, w (slotMask (fun i => (d.slot i).pg) * 65536 + slotMask (fun i => (d.slot i).enabled)), d.egy.eAvail,
      w (d.egy.charger.code * 2 ^ 28 + d.egy.iset.toNat * 2 ^ 16), w d.seqWord]
    ++ List.replicate 11 0
  body ++ [crc32 (body.flatMap wordBytes)]

/-- Take a snapshot; one that repeats the newest's cause and slot within 10 ms is not taken (R488, R198). -/
def Dev.snapshot (d : Dev) (cause slot : Nat) : Dev :=
  if !d.rail.snaps.isEmpty && d.rail.lastCause = cause && d.rail.lastSlot = slot && d.ctl.uptimeMs < d.rail.lastSnapMs + 10 then d
  else
    let total := satInc d.rail.snapTotal
    ({ d with
      rail := { d.rail with snaps := (d.snapshotWords cause slot :: d.rail.snaps).take 8, snapTotal := total,
                            lastCause := cause, lastSlot := slot, lastSnapMs := d.ctl.uptimeMs }
      img := { d.img with recordDue := true } }).emit 0x0E08 (packBytes [(1, cause), (2, total.toNat)])

/-! ### The host path and the ports -/

/-- HOST_PATH = 0 with a cause; PATH_CLOSED if the path was open (Table 2.3). -/
def Dev.closePath (d : Dev) (cause : BitVec 3) : Dev :=
  let d1 := { d with ctl := { d.ctl with hostPath := false, pathCause := cause } }
  if d.ctl.hostPath then d1.emit 0x0104 cause.toNat else d1

/-- HOST_PATH = 1 and PATH_OPENED. -/
def Dev.openPath (d : Dev) : Dev :=
  ({ d with ctl := { d.ctl with hostPath := true, pathOpened := true } }).emit 0x0103 0

/-- The port with every field at its reset value except the LK fields, READS and WRITES, and the admitted requests, whose
completions will be discarded (R40, R245, Table 6.5). -/
def fabDown (f : Fab) : Fab :=
  { Fab.reset with
    enabled := f.enabled, maxWidth := f.maxWidth, maxRate := f.maxRate, reads := f.reads, writes := f.writes,
    fresetLow := f.fresetLow
    inflight := (f.inflight.filter (fun r => r.code.isNone)).map (fun r => { r with drop := true }) }

/-- Completions a port discards when it goes down: not sent or not acknowledged (R243 to R245). DESIGN CHOICE (log entry 54): the
completion that an admitted request would have had counts, that of a request still in the receive buffer does not. -/
def fabDropped (f : Fab) : Nat := f.cq.length + f.replay.length + (f.inflight.filter (fun r => !r.drop)).length

/-- Take a port to DISABLED as a port reset (R39, R243 to R245), with the cause of FAB_LINK_DOWN: 3 REFCLK lost and 4 SAVE report
the number of discarded completions whatever it is, the others only when there are any. -/
def Dev.portDown (d : Dev) (p : Port) (cause : Nat) : Dev :=
  let n := fabDropped (d.port p)
  let d1 := (d.onPort p fabDown).emit 0x0201 (packBytes [(1, portCode p), (1, cause)])
  if n = 0 && cause ≠ 3 && cause ≠ 4 then d1 else d1.emit 0x0205 (packBytes [(1, portCode p), (2, (satBits 16 n).toNat)])

/-- A port in DISABLED goes to DETECT when everything Table 7.2 asks for holds. -/
def Dev.portWake (d : Dev) (p : Port) : Dev :=
  let f := d.port p
  if f.link = .disabled && f.enabled && !f.fresetLow && !d.ctl.domainsDown.getLsbD 4 && !d.ctl.domainsDown.getLsbD 5
      && d.clk.refGood && d.clk.pllLocked && d.ctl.mode ≠ .save then
    d.onPort p (fun f => { f with link := .detect })
  else d

/-- Take a port to DISABLED; one that is there already reports nothing. -/
def Dev.portFall (d : Dev) (p : Port) (cause : Nat) : Dev :=
  if (d.port p).link = .disabled then d.onPort p fabDown else d.portDown p cause

/-- The ports go to DISABLED at SAVE's clock switch, or at the start of phase 1 with CLK_SRC = 1 already (R243, R542). -/
def Dev.savePortsDown (d : Dev) : Dev := (d.portFall .fa 4).portFall .fb 4

/-- A fresh start of a port's link layer (R208, R209). -/
def fabFresh (f : Fab) : Fab :=
  { f with
    txSeq := 0, rxSeq := 0, replay := [], resend := [], cq := [], holdsState := false, txLimit := f.hostCredits, txConsumed := 0, rxLimit := 512,
    rxConsumed := 0, lastCreditSent := 512, nakSent := false, skipToPso := false, episodes := 0, ackOwed := 0, rx := []
    inflight := (f.inflight.filter (fun r => r.code.isNone)).map (fun r => { r with drop := true }) }

/-! ### The herd (R518 to R524) -/

/-- Leave the herd (R524). -/
def Dev.herdLeave (d : Dev) (reason : Nat) : Dev :=
  if d.herd.joined then
    ({ d with herd := { d.herd with joined := false, pulling := false, grabDue := false, holdRunning := false } }).emit 0x0F01
      (packBytes [(1, d.herd.addr.toNat), (1, reason)])
  else d

/-- Enter CUT from ARMED (R518, R519): an own cause pulls the line in the same cycle, the line's own fall after t_grab. The fall that
an own cause makes ends a high period in which the device has already gone on (R512). -/
def Dev.herdEnterCut (d : Dev) (own : Bool) (trigger : Nat) : Dev :=
  ({ d with herd := { d.herd with
    st := 8, steps := d.herd.steps + 1, counted := own || d.herd.counted, pulling := own, grabDue := !own, holdRunning := own } }).emit 0x0F03
    (packBytes [(1, bit own 0), (1, if own then trigger else 0)])

/-- A joined device in ARMED. -/
def Dev.herdArmed (d : Dev) : Bool := d.herd.joined && d.herd.st = 7

/-! ### Copy engines at preemption (R288, R289) -/

/-- The checkpoint record of an engine (R289). -/
def ceRecord (c : Ce) : Checkpoint :=
  { st := c.st, cause := c.cause, run := c.run, runChunk := c.runChunk, stopChunk := c.stopChunk, queue := c.queue,
    nextId := c.nextId, good := true }

/-- RUN_DESC_ID. -/
def Ce.runId (c : Ce) : BitVec 16 := match c.run with | some x => x.id | none => 0xFFFF

/-- An engine with no chunk in progress stops at its chunk boundary (R288): RUNNING becomes RESUMABLE. -/
def Dev.cePreempted (d : Dev) (n : Nat) (cause : BitVec 4) : Dev :=
  let c := d.engine n
  let d1 := d.onEngine n (fun c =>
    if c.st = .running then { c with st := .resumable, cause := cause, preempt := none } else { c with preempt := none })
  let d2 := if c.st = .running then d1.emit 0x0414 (packBytes [(1, n), (2, c.runId.toNat)]) else d1
  d2.onEngine n (fun c => { c with checkpoint := some (ceRecord c) })

/-- Preempt every engine: at once, or at the end of the chunk in progress (R288). -/
def Dev.preemptEngines (d : Dev) (cause : BitVec 4) : Dev :=
  (List.range 4).foldl (fun d n =>
    if (d.engine n).job.isSome then d.onEngine n (fun c => { c with preempt := some cause }) else d.cePreempted n cause) d

/-- A checkpoint comes back to its engine (R290); one that fails its integrity check leaves the engine IDLE (R294). -/
def Dev.ceReturn (d : Dev) (n : Nat) (k : Option Checkpoint) : Dev :=
  match k with
  | none => d
  | some r =>
    if !r.good then (d.onEngine n (fun c => { c with st := .idle, cause := 0, run := none, queue := [], checkpoint := none })).emit 0x0418 n
    else
      let work := r.run.isSome || !r.queue.isEmpty
      let st := if r.run.isNone then CeState.idle else if r.st = .stopped then .stopped else .resumable
      let d1 := d.onEngine n (fun c => { c with
        st := st, cause := r.cause, run := r.run, runChunk := r.runChunk, stopChunk := r.stopChunk, queue := r.queue,
        nextId := r.nextId, checkpoint := none })
      if work then d1.emit 0x0415 (packBytes [(1, n), (2, (d1.engine n).runId.toNat)]) else d1

/-- The checkpoints held in the keeper area come back (R290). -/
def Dev.returnCheckpoints (d : Dev) : Dev :=
  (List.range 4).foldl (fun d n => d.ceReturn n (d.engine n).checkpoint) d

/-! ### Stopping other work at an entry to SAVE or SAFEHOLD -/

/-- YOKE holds and counts end (R365). -/
def Dev.endYoke (d : Dev) : Dev := { d with mc := d.mc.map (fun c => { c with yokeCounts := [], yokeHeld := [] }) }

/-- Retraining passes stop, after the pause in progress (R354); the instance will start again (R54), unless that pause is its fifth,
with which the pass finishes (R350). -/
def Dev.stopPasses (d : Dev) : Dev :=
  (List.range 4).foldl (fun d c =>
    match (d.chan c).pass with
    | some p =>
      let d1 := if p.inPause then d.onChan c (fun m => { m with passAsked := false })
        else d.onChan c (fun m => { m with pass := none, passAsked := false })
      if p.cause = 0 && (if p.inPause then p.lane ≠ 4 else 0 < p.lane) then d1.taskStopped (4 + c) else d1
    | none => d) d

/-- The capacitance and ESR test stops at once and its BLEED slot switches off (R495). DESIGN CHOICE (log entry 55): the stop is
reported by no ENERGY_TEST_DONE, and a test that ENERGY_TEST started is not started again; an instance of task 3 is (R54). -/
def Dev.stopTest (d : Dev) : Dev :=
  let bleedOff := fun (d : Dev) => { d with rail := { d.rail with slots := d.rail.slots.map (fun s =>
    if s.st = .bleeding then { s with st := .off, enabled := false } else s) } }
  match d.egy.test with
  | some t =>
    let d1 := bleedOff { d with egy := { d.egy with test := none } }
    if t.scheduled then d1.taskStopped 9 else d1
  | none => bleedOff d

/-- The charger is off (R491). -/
def Dev.chargerOff (d : Dev) : Dev :=
  { d with egy := { d.egy with chgEn := false, iset := 0, winSum := 0, winScans := 0, retrying := false
                               charger := if d.unconfigured then .unconfigured else if d.egy.charger = .fault then .fault else .off } }

/-- A shutdown is in progress, or has been decided and waits for flash status (R556). -/
def Dev.shutting (d : Dev) : Bool := d.rail.shut.isSome || d.rail.abandonWait

/-- The charger may not run (R491). -/
def Dev.chargerBlocked (d : Dev) : Bool := !d.egy.started || d.ctl.mode = .save || d.shutting || d.rail.vinFired

/-- CHG_EN and the duty, with the charger's state; the window of R493 starts at the rise of CHG_EN. -/
def Dev.chargerSet (d : Dev) (on : Bool) (st : Charger) : Dev :=
  let fresh := on && !d.egy.chgEn
  { d with egy := { d.egy with chgEn := on, iset := if on then d.egy.isetMax else 0, charger := st
                               winSum := if fresh then 0 else d.egy.winSum, winScans := if fresh then 0 else d.egy.winScans } }

/-- The charger under R491 and R492, and what a test makes it do (R494). -/
def Dev.chargerEval (d : Dev) : Dev :=
  if d.unconfigured || d.chargerBlocked then d.chargerOff
  else if d.egy.charger = .fault then d.chargerSet d.egy.retrying .fault
  else match d.egy.test with
    | some t => if t.step = 1 then d.chargerSet false (if d.rail.slots.any (fun s => s.st = .bleeding) then .bleed else .test)
        else d.chargerSet (t.step = 2) .test
    | none =>
      if d.egy.charger = .charging then (if d.egy.vFull.toNat * 1000 ≤ d.vTerm then d.chargerSet false .full else d.chargerSet true .charging)
      else if d.vOc * 100 ≤ d.egy.vFull.toNat * 99000 then d.chargerSet true .charging
      else d.chargerSet false .full

/-- The flash scrub pass stops (R420). -/
def Dev.stopScrub (d : Dev) : Dev :=
  match d.img.scrub with
  | some _ => ({ d with img := { d.img with scrub := none, ops := d.img.ops.filter (fun o => match o.2 with | .scrubRead _ => false | _ => true) } }).taskStopped 10
  | none => d

/-- Trickle copies whose DRAM reads have not finished are abandoned: DIRTY becomes 1 (R409, R411). -/
def Dev.abandonReads (d : Dev) : Dev :=
  let gone := d.img.copies.filter (fun c => c.purpose = 0 && c.job.isSome)
  let d1 := { d with img := { d.img with copies := d.img.copies.filter (fun c => !(c.purpose = 0 && c.job.isSome)) } }
  let d2 := { d1 with mc := d1.mc.map (fun m => { m with queue := m.queue.filter (fun e =>
    match e.owner with | .mule k => !(gone.any (fun c => c.id = k)) | _ => true) }) }
  gone.foldl (fun d c => d.setDirty c.granule) d2

/-- Restore granules whose writes have not begun are dropped and stay unrestored (R580). -/
def Dev.dropRestores (d : Dev) : Dev :=
  { d with
    rst := { d.rst with flight := d.rst.flight.filter (·.begun), admitted := false, demand := [] }
    mc := d.mc.map (fun (m : Mc) => { m with queue := m.queue.filter (fun e => match e.owner with
      | .restore g => d.rst.flight.any (fun r => r.granule = g && r.begun)
      | _ => true) })
    img := { d.img with ops := d.img.ops.filter (fun o => match o.2 with | .restoreRead _ _ => false | _ => true) } }

/-- Class Q work that is unfinished completes DENIED_MODE (R109). -/
def Dev.stopHeld (d : Dev) : Dev :=
  d.eu.held.foldl (fun d h => if h.result.isNone then d.emit 0x0162 (packBytes [(1, h.tag.toNat), (1, 0x20)]) else d)
    { d with eu := { d.eu with held := d.eu.held.map (fun h => if h.result.isNone then { h with result := some (0x20, []) } else h) } }

/-- Rooster's host transmission and blink stop at SAVE entry (R617, R618). -/
def Dev.stopRooster (d : Dev) : Dev :=
  let hostOn := d.roo.hostPending.isSome || (match d.roo.tx with | .host _ _ => true | _ => false)
  let blinkOn := d.roo.blinking || d.roo.blinkPending
  let tx := match d.roo.tx with | .host _ _ => IrTx.free | .blink _ => .free | t => t
  let d1 := { d with roo := { d.roo with hostPending := none, blinking := false, blinkPending := false, tx := tx } }
  let d2 := if hostOn then d1.emit 0x0F84 1 else d1
  if blinkOn && d.roo.blinking then d2.emit 0x0F85 0 else d2

/-- The parameter of DRAM_GEOMETRY (Table 9.8). -/
def Dev.geometryParam (d : Dev) (c result : Nat) : Nat :=
  packBytes [(1, c), (1, (d.chan c).ranks.toNat), (1, (d.chan c).density.toNat), (1, result)]

/-- Full training ends as a failure, the earlier points restored: SAVE performs no training (R349, R358). An offline channel stays
offline with the events of R308; the stage it had reached is a free value of stages 2 to 6 (log entry 56). -/
def Dev.stopTraining (d : Dev) : Dev :=
  (List.range 4).foldl (fun d c =>
    if (d.chan c).fullTrain then
      let d1 := d.onChan c (fun m => { m with fullTrain := false })
      let d2 := if (d.chan c).offline then
          ((d1.emit 0x0800 (d1.geometryParam c 2)).emit 0x0801 (packBytes [(1, c), (1, 2 + d1.fresh % 5)])).used
        else d1
      d2.emit 0x0810 (packBytes [(1, c), (1, 1), (1, 2)])
    else d) d

/-- RESTORE is in progress, in RESTORE or paused under SAFEHOLD (R559). -/
def Dev.restoring (d : Dev) : Bool := d.ctl.mode = .restore || (d.ctl.mode = .safehold && d.ctl.returnMode = .restore)

/-- CAP_MF × V_oc² with V_oc in µV: the energy of R500 in units of 1/(2 × 10^12) mJ. -/
def Dev.storeEnergy (d : Dev) : Nat := d.egy.capMf.toNat * d.vOc * d.vOc

/-! ### Entering SAVE (R538, R539) -/

/-- The mode, the events and the record of a SAVE that is entered with a trigger code. DESIGN CHOICE (log entry 57): a SAVE entered
with the flash unusable or BOUND = 0, which R423 and R462 let commit nothing, runs as the skip of R559. -/
def Dev.saveRecord (d : Dev) (trigger : BitVec 3) : Dev :=
  let skip := (d.awaits && !d.restoring) || d.img.deferred || !d.img.usable || !d.cip.bound
  let from_ := d.ctl.mode
  let cal := if d.egy.calRunning then some d.storeEnergy else none
  let d1 := d.closePath 2
  let d2 := { d1 with ctl := { d1.ctl with mode := .save, lastTrigger := trigger, entry := none, entrySwitching := false } }
  let d3 := (d2.emit 0x0110 (packBytes [(1, trigger.toNat), (1, from_.code)])).emit 0x0114 (packBytes [(1, 0), (4, 0)])
  { d3 with
    sav := { Sav.reset with from_ := from_, classes := d.attrs, skip := skip
                            bound := d.flashBound }
    img := { d3.img with
      trickleRun := false, batch := []
      commitAsked := d3.img.commitAsked.filter (· = 3) }
    egy := { d3.egy with cal0 := cal, cal1 := none, cal2 := none, calSum := 0, calScans := 0 } }

/-- The work that an entry to SAVE stops. -/
def Dev.saveStops (d : Dev) : Dev :=
  d.endYoke.stopPasses.stopTraining.stopTest.chargerOff.stopScrub.abandonReads.dropRestores.stopHeld.stopRooster

/-- Copies of trickle and of a flush whose reads have finished go on as SAVE's. -/
def Dev.ownCopies (d : Dev) : Dev :=
  { d with img := { d.img with copies := d.img.copies.map (fun (c : Copy) => if c.purpose = 0 || c.purpose = 2 then { c with purpose := 1 } else c) } }

/-- The entry cycle of SAVE with its trigger code. -/
def Dev.enterSave (d : Dev) (trigger : BitVec 3) : Dev := (d.saveRecord trigger).saveStops.ownCopies.preemptEngines 4

/-! ### Entering SAFEHOLD (R588) -/

/-- The lowest set bit of SAFEHOLD_CAUSES (R584). -/
def lowestCause (w : Word) : Nat := ((List.range 6).find? (fun i => w.getLsbD i)).getD 0

/-- The mode and the event of an entry to SAFEHOLD from a mode that is the return mode; `cause` is the parameter of
SAFEHOLD_ENTERED. -/
def Dev.safeRecord (d : Dev) (ret : Mode) (cause : Nat) : Dev :=
  let d1 := (d.closePath 4).emit 0x0130 cause
  { d1 with ctl := { d1.ctl with mode := .safehold, returnMode := ret, entry := none, entrySwitching := false } }

/-- The entry cycle of SAFEHOLD. -/
def Dev.enterSafehold (d : Dev) (ret : Mode) (cause : Nat) : Dev :=
  ((d.safeRecord ret cause).endYoke.stopPasses.dropRestores).preemptEngines 5

/-- A SAFEHOLD cause arises (R584). -/
def Dev.latchCause (d : Dev) (code : Nat) : Dev :=
  let d1 := { d with ctl := { d.ctl with safeholdCauses := d.ctl.safeholdCauses ||| ((1 : Word) <<< code) } }
  match d.ctl.mode with
  | .operate => d1.enterSafehold .operate code
  | .restore => d1.enterSafehold .restore code
  | .safehold => d1.emit 0x0132 code
  | _ => d1

/-- A standing cause ends (R587). -/
def Dev.clearCause (d : Dev) (code : Nat) : Dev :=
  if d.ctl.safeholdCauses.getLsbD code then
    ({ d with ctl := { d.ctl with safeholdCauses := d.ctl.safeholdCauses &&& ~~~((1 : Word) <<< code) } }).emitAt 0x0130 0x0133 code
  else d

/-! ### Resets and the return to WAIT_RAILS (R24, R37, R179) -/

/-- The flash contents and NAND geometry, which outlive every reset, over an image store at reset. -/
def imgKept (i : Img) : Img :=
  { Img.reset with
    geom := i.geom, committed := i.committed, slots := i.slots, primary := i.primary, secondary := i.secondary,
    records := i.records, keeperCkpt := i.keeperCkpt, keeperCap := i.keeperCap,
    sys := i.sys }

/-- A device whose Ledger fields are at their reset values, keeping pin levels, readings, straps, fuses and the flash. -/
def Dev.baseReset (d : Dev) : Dev :=
  { Dev.reset with
    ident := d.ident
    eu := { Eu.reset with waitBytes := if d.ident.strap0 then 8 else 4 }
    clk := { Clk.reset with refGood := d.clk.refGood }
    fa := { Fab.reset with fresetLow := d.fa.fresetLow }
    fb := { Fab.reset with fresetLow := d.fb.fresetLow }
    img := imgKept d.img
    rail := { Rail.reset with
      slots := d.rail.slots.map (fun s => { Slot.reset with pg := s.pg, vs := s.vs })
      snaps := d.rail.snaps, snapTotal := d.rail.snapTotal, lastCause := d.rail.lastCause, lastSlot := d.rail.lastSlot,
      lastSnapMs := d.rail.lastSnapMs }
    adc := d.adc
    herd := { Herd.reset with line := d.herd.line, addr := if d.ident.strap1 then d.ident.herdAddr else 0 }
    roo := { Roo.reset with shortId := d.ident.serial.extractLsb' 0 16 }
    therm := { Therm.reset with tDie := d.therm.tDie, td := d.therm.td, tdRaw := d.therm.tdRaw, scans := d.therm.scans
                                minuteMax := d.therm.minuteMax, minutes := d.therm.minutes }
    jtag := d.jtag
    mem := d.mem
    free := d.free
    out := { d.out with seqReset := true, mem := d.out.mem ++ [.clear] } }

/-- A cold reset: CONFIG, every PS_EN low at once, DRAM lost (R37). -/
def Dev.coldReset (d : Dev) (cause : BitVec 2) : Dev :=
  { d.baseReset with
    eu := { Eu.reset with queue := d.eu.queue, lost := d.eu.lost }
    ident := { d.ident with sampled := false }
    ctl := { Ctl.reset with
      resetCause := cause, resumeCount := d.ctl.resumeCount, resetLow := d.ctl.resetLow, pfailLow := d.ctl.pfailLow,
      powerGoodSince := d.ctl.powerGoodSince, domainsDown := d.ctl.domainsDown, uptimeMs := d.ctl.uptimeMs } }

/-- The return to WAIT_RAILS after a sequenced shutdown (R24, Table 6.2). INTLV_WAYS is the code of the used-channel count that CH_USED
keeps (Table 6.3). A domain that STARTUP needs and that is still down holds it (log entry 44). THERM_N and an excursion of T_DIE go on (R649,
R651). -/
def Dev.returnToWaitRails (d : Dev) : Dev :=
  { d.baseReset with
    eu := { Eu.reset with waitBytes := if d.ident.strap0 then 8 else 4, queue := d.eu.queue, lost := d.eu.lost, reply := d.eu.reply }
    ctl := { Ctl.reset with
      step := .waitRails, resetCause := d.ctl.resetCause, resumeCount := d.ctl.resumeCount, saveArmed := d.ctl.saveArmed,
      resetLow := d.ctl.resetLow, pfailLow := d.ctl.pfailLow, powerGoodSince := d.ctl.powerGoodSince,
      domainsDown := d.ctl.domainsDown, domainHold := d.ctl.domainsDown &&& 0x4F ≠ 0, uptimeMs := d.ctl.uptimeMs }
    roo := { d.baseReset.roo with
      beaconPending := d.roo.beaconPending, statusAsked := d.roo.statusAsked, statusPending := d.roo.statusPending,
      hostPending := d.roo.hostPending, blinkPending := d.roo.blinkPending, blinking := d.roo.blinking, tx := d.roo.tx,
      txPeriod := d.roo.txPeriod, txOn := d.roo.txOn, topFault := d.roo.topFault }
    therm := { d.baseReset.therm with causes := d.therm.causes, active := d.therm.active, overLimit := d.therm.overLimit }
    dcfg := { Dcfg.reset with
      chUsed := d.dcfg.chUsed, ways := if d.dcfg.chUsed = 0 then 2 else BitVec.ofNat 2 (waysOf d.usedChannels.length) } }

/-- VDD_AON below its minimum: nothing but the flash is kept (Table 2.3). -/
def Dev.powerOff (d : Dev) : Dev :=
  { Dev.reset with
    ctl := { Ctl.reset with mode := .unpowered }
    img := imgKept d.img
    free := d.free
    mem := d.mem
    out := { d.out with clearQueue := true, seqReset := true, mem := d.out.mem ++ [.clear] } }

/-! ### The sequenced shutdown (R482 to R484) -/

/-- Pending timer inputs of steps and delays that have been left (R628). -/
def Dev.staleTimers (d : Dev) : Dev :=
  { d with rail := { d.rail with delaying := [], pending := d.rail.pending.map (fun (i : SeqInput) => match i with
    | .timer k s => if k = 4 then .timer k s else .timer 9 s
    | i => i) } }

/-- The outcome of a shutdown that has no slot left (R483, R484): a following attempt is marked due. -/
def Dev.shutDone (d : Dev) (s : Shut) : Dev :=
  let d1 := d.emit 0x0E07 s.timeouts
  match s.after with
  | .waitRails => d1.returnToWaitRails
  | .retry => { d1 with rail := { d1.rail with
      shut := none, st := .retryWait, waiting := if d.rail.header.extractLsb' 8 8 = 0 then 16 else 0 } }
  | .excludedRun slot =>
    let d2 := d1.onSlot slot (fun x => { x with st := .excluded })
    ({ d2 with rail := { d2.rail with shut := none, excludedRun := true, waiting := 16 } }.emit 0x0E03 (packBytes [(1, slot), (1, 0)])).latchCause 3
  | .halt slot =>
    let d2 := ({ d1 with
      rail := { d1.rail with shut := none, st := .halted }
      ctl := { d1.ctl with step := .halted } }).emit 0x0102 slot
    d2.herdLeave 2

/-- Switch off the next slot that is not off yet, passing those already off or in FAULT (R482). -/
def Dev.shutNext (d : Dev) (s : Shut) : List Nat → Dev
  | [] => d.shutDone s
  | i :: t =>
    match (d.slot i).st with
    | .up | .enabling | .disabling =>
      if (d.slot i).isOff then (d.onSlot i (fun x => { x with st := .off, enabled := false })).shutNext s t
      else
        let d1 := d.onSlot i (fun x => { x with st := .disabling, enabled := false })
        { d1 with rail := { d1.rail with shut := some { s with left := i :: t } } }
    | _ => d.shutNext s t

/-- The order a shutdown takes: the reverse of the enable order, the highest slot of a cycle first (R482). -/
def shutOrder (order : List (List Nat)) : List Nat := order.reverse.flatMap (fun g => g.reverse)

/-- Begin the switching-off of every rail the last attempt enabled; a wait at a HERD_STEP ends. -/
def Dev.startShut (d : Dev) (after : AfterShut) (st : SeqState) : Dev :=
  let d0 := d.stopTest.chargerOff.staleTimers
  let d1 := { d0 with
    rail := { d0.rail with st := st, waiting := 0 }
    herd := { d0.herd with waitFor := none } }
  d1.shutNext { left := [], timeouts := 0, after := after } (shutOrder d.rail.order)

/-- A sequenced shutdown of the mode machine: SHUTDOWN_BEGUN with its parameter, leaving the herd (R524 reason 3). An entry to OPERATE in
progress ends without effect (DEDUCED, log entry 72). -/
def Dev.beginShutdown (d : Dev) (param : Nat) : Dev :=
  let d0 := { d with ctl := { d.ctl with entry := none, entrySwitching := false } }
  let d1 := (d0.closePath (if d.ctl.hostPath then 0 else d.ctl.pathCause)).emit 0x0112 param
  ((d1.herdLeave 3).startShut .waitRails .shutdown)

/-! ### The end of SAVE (R38, R42, R43, R554 to R559) -/

/-- The conditions of a resume in place (R42). -/
def Dev.canResume (d : Dev) : Bool :=
  d.ctl.lastTrigger ≠ 1 && !d.ctl.pfailLow && !d.rail.vinFired && d.clk.refGood
    && (match d.ctl.powerGoodSince with | some t => t + 10 ≤ d.ctl.uptimeMs | none => false)

/-- The resume in place once the clock and the channels are back, NAND at its OPERATE rate (R43, R47, R554, R555); a RESET_N latched by then makes the cold reset in
its place (R38). -/
def Dev.resume (d : Dev) : Dev :=
  if d.ctl.resetLatched then d.coldReset 2
  else
  let back := d.sav.from_
  let d1 := { d with ctl := { d.ctl with
    mode := back, resumeCount := satInc d.ctl.resumeCount, hostPath := false, entry := none, entrySwitching := false
    pathCause := match back with | .restore => 5 | .safehold => 4 | _ => 2 } }
  let d2 := (d1.emitAt 0x0111 0x0114 (packBytes [(1, 7), (4, d.sav.finished)])).emit 0x0111 back.code
  let d3 := ({ d2 with sav := { d2.sav with phase := 7, nandSlow := false } }.portWake .fa).portWake .fb
  if back ≠ .safehold && d.ctl.safeholdCauses ≠ 0 then
    d3.returnCheckpoints.enterSafehold back (lowestCause d.ctl.safeholdCauses)
  else d3.returnCheckpoints

/-- SAVE ends without a resume: the cold reset of a latched RESET_N, or the sequenced shutdown (R38, R554). -/
def Dev.endSave (d : Dev) (param : Nat) : Dev :=
  if d.ctl.resetLatched then d.coldReset 2
  else d.beginShutdown param

/-- Phase 7 (R554). -/
def Dev.savePhase7 (d : Dev) : Dev :=
  if d.sav.resume = some true && !d.ctl.resetLatched then
    ({ d with
      sav := { d.sav with phase := 7 }
      ctl := { d.ctl with entry := some .resume, entrySwitching := true } }).clkSwitch false
  else
    let d1 := ({ d with sav := { d.sav with phase := 7 } }).emitAt 0x0111 0x0114 (packBytes [(1, 7), (4, d.sav.finished)])
    d1.endSave (if d.sav.skip then 3 else 0)

/-- Abandonment before the commit (R556): no further flash or DRAM operation starts, and the flash operations in progress
are waited for. -/
def Dev.abandonSave (d : Dev) (kind code : Nat) : Dev :=
  { d with
    sav := { d.sav with abandoned := true, fault := (kind, code) }
    ctl := { d.ctl with entry := none, entrySwitching := false }
    rail := { d.rail with abandonWait := true } }

/-- The end of that wait: SAVE_ABANDONED, SAVE_ABANDON, the failed calibration, and the shutdown or cold reset (R556, R500). -/
def Dev.abandonEnd (d : Dev) : Dev :=
  let d1 := { d with
    img := { d.img with flags := d.img.flags ||| 2 }
    rail := { d.rail with abandonWait := false } }
  let d2 := d1.emitAt 0x0110 0x0116 (packBytes [(1, d.sav.fault.1), (1, d.sav.fault.2), (1, d.sav.phase.toNat)])
  let d3 := if d2.egy.calRunning then
      ({ d2 with egy := { d2.egy with calRunning := false } }).emitAt 0x0110 0x0E12 (packBytes [(1, 1), (1, 4)]) else d2
  d3.endSave 1

/-- A fault of a rail or domain that SAVE needs, in SAVE (R556, R557): before the commit, or the end of phase 1 that takes its place in a
skipped SAVE (R559), it abandons SAVE. -/
def Dev.neededFaultInSave (d : Dev) (kind code : Nat) : Dev :=
  if d.sav.abandoned || d.shutting then d
  else if d.sav.committed || d.sav.resume.isSome then
    ((({ d with sav := { d.sav with phase := 7 } }).emitAt 0x0111 0x0114 (packBytes [(1, 7), (4, d.sav.finished)]))).endSave
      (if d.sav.skip then 3 else 0)
  else d.abandonSave kind code

/-- A power-fail trigger or rail fault in OPERATE, RESTORE or SAFEHOLD (Table 13.5, R535): SAVE when armed and SAVE can run,
otherwise the unsaved shutdown. -/
def Dev.powerTrigger (d : Dev) (needed : Bool) (trigger : BitVec 3) : Dev :=
  if d.ctl.saveArmed && !needed then d.enterSave trigger else d.beginShutdown 2

/-! ### The entry to OPERATE (R27, R585) -/

/-- Finish an entry to OPERATE whose clock and training are right. -/
def Dev.entryFinish (d : Dev) (for_ : EntryFor) : Dev :=
  let d1 := { d with ctl := { d.ctl with entry := none, entrySwitching := false } }
  match for_ with
  | .modeRequest _ => d1.openPath
  | .resume => d1.resume
  | _ => d1

/-- An entry to OPERATE: with CLK_SRC = 1 and REFCLK good it switches to REFCLK and retrains first (R27); a running switch
completes first (R33). -/
def Dev.entryOperate (d : Dev) (for_ : EntryFor) : Dev :=
  let isReq := match for_ with | .modeRequest _ => true | _ => false
  let low := d.mc.any (fun c => c.used && !c.offline && c.onPoint1)
  if (d.clk.src || d.clk.switching) && d.clk.refGood then
    let d1 := { d with ctl := { d.ctl with entry := some for_, entrySwitching := true } }
    if d.clk.switching then d1 else d1.clkSwitch false
  else if !d.clk.src && ((isReq && (d.ctl.retrainFailed || d.mc.any (fun c => c.fullTrain))) || (low && !d.ctl.retrainFailed)) then
    ({ d with ctl := { d.ctl with entry := some for_, entrySwitching := false } }).onPoint1 false
  else d.entryFinish for_

/-- The anchors of the tasks that a mode makes active (Table 2.6). -/
def Dev.anchorTasks (d : Dev) : Dev :=
  match d.ctl.mode with
  | .operate =>
    let d1 := (List.range 4).foldl (fun d c => if (d.chan c).retrainEn && (d.chan c).used then d.anchorTask (4 + c) else d) d
    ((if d1.awaits then d1 else d1.anchorTask 8).anchorTask 9).anchorTask 10
  | .restore => (List.range 4).foldl (fun d c => if (d.chan c).retrainEn && (d.chan c).used then d.anchorTask (4 + c) else d) d
  | .safehold => (d.anchorTask 9).anchorTask 10
  | _ => d

/-- An own cut cause, or the line, cuts an ARMED herd (R518 to R520): CUT, and SAVE when armed, with the higher-ranked
trigger recorded (R46). -/
def Dev.herdCut (d : Dev) (own : Bool) (trigger : Nat) : Dev :=
  let d1 := d.herdEnterCut own trigger
  if d.ctl.saveArmed && (d.ctl.mode = .operate || d.ctl.mode = .restore || d.ctl.mode = .safehold) then
    d1.enterSave (BitVec.ofNat 3 (if own then min trigger 4 else 4))
  else d1

/-- A restored capture returns to the on-die copy (R378); the keeper area has held it since the restore. -/
def Dev.returnCaptures (d : Dev) : Dev :=
  (List.range 4).foldl (fun d c =>
    match d.rst.captures.getD c [] with
    | [] => d
    | k => d.onChan c (fun m => { m with capture := k, keeperCapture := k, captureValid := true, frozen := false })) d

/-- RESTORE ends in the first cycle in which every granule is restored and no verdict is pending (R581). -/
def Dev.restoreEnd (d : Dev) : Dev :=
  if d.ctl.mode = .restore && d.rst.unrestored.isEmpty && d.rst.flight.isEmpty && d.rst.verdicts.isEmpty then
    let d1 := { d with img := { d.img with flags := d.img.flags ||| 4 }, ctl := { d.ctl with mode := .operate } }
    let d2 := (List.range 4).foldl (fun e n => e.ceReturn n (d.rst.ckpts.getD n none)) d1
    let d3 := (d2.returnCaptures).emit 0x0121 (bit d.ctl.hostPath 0)
    ({ d3 with rst := Rst.reset }).entryOperate (.fromRestore d.ctl.hostPath)
  else d

/-- Every granule the working map holds in flash is to be restored, and nothing is dirty (R567, R568). -/
def Dev.beginRestore (d : Dev) (verifyFirst : Bool) : Dev :=
  let want := (d.img.gmap.filter (fun p => p.2.st = 1)).map (·.1)
  ({ d with
    ctl := { d.ctl with mode := .restore, hostPath := false, pathCause := 5 }
    cip := { d.cip with verifyFirst := verifyFirst }
    img := { d.img with gmap := (d.img.gmap.map (fun (p : Nat × GEntry) => (p.1, { p.2 with dirty := false }))).filter (fun p => p.2 ≠ GEntry.zero) }
    rst := { Rst.reset with
      unrestored := want, total := want.length, classes := d.attrs, ckpts := d.img.keeperCkpt, captures := d.img.keeperCap } }).emit
    0x0120 0

/-- SAFEHOLD_RELEASE in the data plane (R591, R592). -/
def Dev.releaseSafehold (d : Dev) : Dev :=
  let back := d.ctl.returnMode
  let d1 := { d with ctl := { d.ctl with
    mode := back, safeholdCauses := d.ctl.safeholdCauses &&& 0x0E
    hostPath := false, pathCause := if back = Mode.restore then 5 else 4 } }
  let d2 := d1.returnCheckpoints.emit 0x0131 back.code
  if back = .operate then d2.entryOperate .fromSafehold else { d2 with rst := { d2.rst with admitted := false } }

/-! ### Freezing a channel (R372, R379, R383) -/

/-- A command record with its age (Table 10.3); the record's age is a free value of the freeze. -/
def recordWords (d : Dev) (n : Nat) (r : Word × Word) : List Word :=
  [r.1, if r.1 = 0 then 0 else r.2 ||| BitVec.ofNat 32 (Config.commandAge (d.free + n) % 2 ^ 21)]

/-- The capture of a freeze (Table 10.2). -/
def Dev.captureWords (d : Dev) (c kind requester : Nat) (l : Loc) (addr : Nat) (codeword : List Byte) (lane : Nat) (dir : Bool) : List Word :=
  let w := fun (n : Nat) => BitVec.ofNat 32 n
  let m := d.chan c
  let ecc := kind = 1
  let synd := if ecc then rsSyndromes codeword else []
  let nonzero := (synd.filter (· ≠ 0)).length
  let packB := fun (bs : List Byte) => (List.range (bs.length / 4)).map (fun i =>
    ((bs.drop (4 * i)).take 4).foldl (fun (acc : Word) b => (acc <<< 8) ||| b.setWidth 32) 0)
  [w (kind * 2 ^ 28 + d.ctl.mode.code * 2 ^ 25 + l.rank % 4 * 2 ^ 22
      + (if ecc then l.bg % 8 * 2 ^ 19 + l.bank % 4 * 2 ^ 17 + l.column % 64 * 2 ^ 11 else 0) + requester % 32 * 2 ^ 6),
    if ecc then w (l.row % 2 ^ 18) else 0, if ecc then w (addr / 2 ^ 32 % 256) else 0, if ecc then w addr else 0,
    d.eu.stateSeq, w d.ctl.uptimeMs,
    w ((tempByte d.therm.tDie).toNat * 2 ^ 24 + m.mr4.toNat * 2 ^ 16 + (if ecc then nonzero * 2 ^ 8 else 0)
      + (if kind = 3 then lane * 2 ^ 4 + bit dir 3 else 0)), 0]
    ++ (if ecc then packB synd ++ packB codeword else List.replicate 24 0)
    ++ ((m.commands ++ List.replicate 64 (0, 0)).take 64).zipIdx.flatMap (fun (p : (Word × Word) × Nat) => recordWords d p.2 p.1)

/-- The second-error rule (R383). -/
def Dev.secondError (d : Dev) : Dev :=
  if d.ctl.mode = .operate || d.ctl.mode = .restore then d.latchCause 4 else d

/-- A 256-byte write of which a burst has been written: it goes on to its own completion, since a write that completes
CHANNEL_FROZEN is not applied (R224, R373). -/
def FReq.goesOn (r : FReq) : Bool := !r.req.isRead && r.begun

/-- What a freeze does to the work on its channel (R281, R373, Table 10.1): queued fabric requests complete CHANNEL_FROZEN,
chunks that touch the channel stop, and Mule's copies outside SAVE are abandoned; restores and Goat's entries stay. -/
def Dev.failQueue (d : Dev) (c : Nat) : Dev :=
  let stays := fun (e : QEntry) => match e.owner with
    | .fabric p n => (d.port p).inflight.any (fun r => r.id = n && r.goesOn)
    | _ => false
  let q := (d.chan c).queue.filter (fun e => !stays e)
  let mark := fun (p : Port) (f : Fab) => { f with inflight := f.inflight.map (fun (r : FReq) =>
    if r.code.isNone && q.any (fun e => e.owner = .fabric p r.id) then { r with code := some 2 } else r) }
  let engines := (List.range 4).filter (fun n =>
    match (d.engine n).run, (d.engine n).job with
    | some x, some _ => (x.readBursts (d.engine n).runChunk.toNat ++ x.writeBursts (d.engine n).runChunk.toNat).any (fun b => d.channelOf b = c)
    | _, _ => false)
  let copies := (d.img.copies.filter (fun k => k.job.isSome && (d.granuleChannels k.granule).contains c)).map (·.id)
  let stop := fun (j : Job) => { j with reads := [], writes := [], queued := 0, stopped := true }
  let keep := fun (own : Bool) (e : QEntry) => match e.owner with
    | .fabric _ _ => !own || stays e
    | .engine n => !engines.contains n
    | .mule k => !copies.contains k
    | _ => true
  { d with
    fa := mark .fa d.fa
    fb := mark .fb d.fb
    ce := d.ce.zipIdx.map (fun (p : Ce × Nat) => if engines.contains p.2 then { p.1 with job := p.1.job.map stop } else p.1)
    mc := d.mc.zipIdx.map (fun (p : Mc × Nat) => { p.1 with queue := p.1.queue.filter (keep (p.2 = c)) })
    img := { d.img with copies := d.img.copies.map (fun (k : Copy) => if copies.contains k.id then { k with job := k.job.map stop } else k) } }

/-- Freeze a channel that is not frozen: FROZEN, FREEZES, the capture, DRAM_FROZEN (R372, R377). -/
def Dev.freeze (d : Dev) (c kind : Nat) (capture : List Word) : Dev :=
  ({ ((d.failQueue c).onChan c (fun m => { m with
      frozen := true, freezes := satInc m.freezes, freezeKind := kind, trainedSinceFreeze := false
      captureValid := true, capture := capture, captureToCopy := !d.img.deferred })) with free := d.free + 64 }).emit 0x0814
    (packBytes [(1, c), (1, kind)])

/-- An uncorrectable codeword or a parity error on a channel outside SAVE (R372, R374, R383): freeze it if it is not frozen,
and apply the second-error rule if one was. -/
def Dev.channelError (d : Dev) (c kind : Nat) (capture : List Word) : Dev :=
  let wasFrozen := d.mc.any (·.frozen)
  let d1 := if (d.chan c).frozen then d else d.freeze c kind capture
  if wasFrozen then d1.secondError else d1

/-- An uncorrectable codeword in a burst (R372, R374, R376): counted, its granule poisoned; in SAVE no freeze. -/
def Dev.uncorrectableAt (d : Dev) (c requester burst : Nat) (codeword : List Byte) : Dev :=
  let addr := burst * 64
  let cap := d.captureWords c 1 requester (d.locate addr) addr codeword 0 false
  let d1 := ((d.onChan c (fun m => { m with uncorrectable := satInc m.uncorrectable })).emit 0x0812 (packBytes [(1, c), (5, addr)]))
  let d2 := if addr < d.visible then d1.poison (burst / 1024) else d1
  if d.ctl.mode = .save then d2 else d2.channelError c 1 cap

end Sys2Proof.Machine
end

