-- ==== Sys2Proof/Machine/Crypto.lean ====
section
/-! DEFINITION. The published algorithms of Table 12.1: AES-256, its key wrap, GCM and XTS modes, SHA-384, HMAC-SHA-384 and ECDSA
P-384, with the derivations of Table 12.2 (R431, R432). Byte 0 of a block, key or digest is the most significant (R2). -/
namespace Sys2Proof.Machine
open Sys2Proof

/-! ### Bytes -/

/-- The bytes of an n-byte value, most significant first. -/
def bytesOf (n : Nat) (v : Nat) : List Byte := (List.range n).map (fun i => BitVec.ofNat 8 (v >>> (8 * (n - 1 - i))))

/-- The number a byte list spells, most significant byte first. -/
def natOfBytes (l : List Byte) : Nat := l.foldl (fun acc b => acc * 256 + b.toNat) 0

/-! ### AES-256 (FIPS 197) -/

/-- Entry `b` of a table of 256 bytes, 64 entries a number, entry i of a number in byte i. -/
def byteTable (t : List Nat) (b : Byte) : Byte := BitVec.ofNat 8 ((t.getD (b.toNat / 64) 0) >>> (8 * (b.toNat % 64)))

/-- The AES S-box. -/
def aesSub : Byte → Byte := byteTable [
  0x75B227EBE28012079A059618C323C7041531D871F1E5A534CCF73F362693FDB7C072A49CAFA2D4ADF04759FA7DC982CA76ABD7FE2B670130C56F6BF27B777C63,
  0xD2F3FF1021DAB6BCF5389D928F40A351A89F3C507F02F94585334D43FBAAEFD0CF584C4A39BECB6A5BB1FC20ED00D153842FE329B3D63B52A05A6E1B1A2C8309,
  0x08AE7A65EAF4566CA94ED58D6D37C8E779E4959162ACD3C25C2406490A3A32E0DB0B5EDE14B8EE4688902A22DC4F816073195D643D7EA7C41744975FEC130CCD,
  0x16BB54B00F2D99416842E6BF0D89A18CDF2855CEE9871E9B948ED9691198F8E19E1DC186B95735610EF6034866B53E708A8BBD4B1F74DDE8C6B4A61C2E2578BA]

/-- The inverse S-box. -/
def aesUnsub : Byte → Byte := byteTable [
  0x25D18B6D49A25B76B224D92866A12E084EC3FA420B954CEE3D23C2A632947B54CBE9DEC444438E3487FF2F9B8239E37CFBD7F3819EA340BF38A53630D56A0952,
  0x6B8A130103BDAFC1020F3FCA8F1E2CD00645B3B80558E4F70AD3BC8C00ABD890849D8DA75746155EDAB9EDFD5048706C92B6655DCC5CA4D41698688664F6F872,
  0xF45ACD78FEC0DB9A2079D2C64B3E56FC1BBE18AA0E62B76F89C5291D711AF1476EDF751CE837F9E28535ADE72274AC9673E6B4F0CECFF297EADC674F4111913A,
  0x7D0C2155631469E126D677BA7E042B17619953833CBBEBC8B0F52AAE4D3BE0A0EF9CC9939F7AE52D0D4AB519A97F51605FEC8027591012B131C7078833A8DD1F]

/-- Byte `i` of a block. -/
def blockByte (s : BitVec 128) (i : Nat) : Byte := s.extractLsb' (8 * (15 - i)) 8

/-- A block from its 16 bytes. -/
def blockOf (f : Nat → Byte) : BitVec 128 := (List.range 16).foldl (fun acc i => (acc <<< 8) ||| (f i).setWidth 128) 0

/-- SubBytes and ShiftRows. -/
def aesSubShift (s : BitVec 128) : BitVec 128 := blockOf (fun i => aesSub (blockByte s ((i + 4 * (i % 4)) % 16)))

/-- InvShiftRows and InvSubBytes. -/
def aesUnsubShift (s : BitVec 128) : BitVec 128 := blockOf (fun i => aesUnsub (blockByte s ((i + 12 * (i % 4)) % 16)))

/-- The doubling of each byte of a block in the AES field. -/
def aesX (s : BitVec 128) : BitVec 128 :=
  ((s &&& 0x7F7F7F7F7F7F7F7F7F7F7F7F7F7F7F7F) <<< 1) ^^^ (((s >>> 7) &&& 0x01010101010101010101010101010101) * 0x1B)

/-- Each column of a block turned by one byte towards its first. -/
def aesTurn (s : BitVec 128) : BitVec 128 :=
  ((s &&& 0x00FFFFFF00FFFFFF00FFFFFF00FFFFFF) <<< 8) ||| ((s >>> 24) &&& 0x000000FF000000FF000000FF000000FF)

/-- MixColumns. -/
def aesMix (s : BitVec 128) : BitVec 128 :=
  let x := aesX s
  let t := aesTurn (s ^^^ x)
  let t1 := aesTurn s
  let t2 := aesTurn t1
  x ^^^ t ^^^ t2 ^^^ aesTurn t2

/-- InvMixColumns: MixColumns has order four. -/
def aesUnmix (s : BitVec 128) : BitVec 128 := aesMix (aesMix (aesMix s))

/-- SubWord. -/
def aesSubWord (w : Word) : Word :=
  [24, 16, 8, 0].foldl (fun acc i => (acc <<< 8) ||| (aesSub (w.extractLsb' i 8)).setWidth 32) 0

/-- The next eight words of the key schedule from the last eight, for a round constant. -/
def aesNext (l : List Word) (rcon : Word) : List Word :=
  let w := fun i => l.getD i 0
  let t := aesSubWord ((w 7).rotateLeft 8) ^^^ (rcon <<< 24)
  let w0 := w 0 ^^^ t
  let w1 := w 1 ^^^ w0
  let w2 := w 2 ^^^ w1
  let w3 := w 3 ^^^ w2
  let w4 := w 4 ^^^ aesSubWord w3
  let w5 := w 5 ^^^ w4
  let w6 := w 6 ^^^ w5
  [w0, w1, w2, w3, w4, w5, w6, w 7 ^^^ w6]

/-- The words of the key schedule after the given ones, for the round constants left. -/
def aesSchedule : List Word → List Word → List Word
  | l, [] => l
  | l, r :: t => l ++ aesSchedule (aesNext l r) t

/-- Four words as a block. -/
def fourWords (l : List Word) : BitVec 128 := l.foldl (fun acc w => (acc <<< 32) ||| w.setWidth 128) 0

/-- The 15 round keys of a 256-bit key. -/
def aesKeys (key : BitVec 256) : List (BitVec 128) :=
  let first := (List.range 8).map (fun i => key.extractLsb' (224 - 32 * i) 32)
  let all := aesSchedule first [1, 2, 4, 8, 16, 32, 64]
  (List.range 15).map (fun r => fourWords ((all.drop (4 * r)).take 4))

/-- The rounds of the cipher for the round keys left. -/
def aesRounds : List (BitVec 128) → BitVec 128 → BitVec 128
  | [], s => s
  | [k], s => aesSubShift s ^^^ k
  | k :: t, s => aesRounds t (aesMix (aesSubShift s) ^^^ k)

/-- AES-256 encryption of a block. -/
def aesEncrypt (key : BitVec 256) (block : BitVec 128) : BitVec 128 :=
  match aesKeys key with
  | k :: t => aesRounds t (block ^^^ k)
  | [] => block

/-- The rounds of the inverse cipher for the round keys left, the last round's first. -/
def aesUnrounds : List (BitVec 128) → BitVec 128 → BitVec 128
  | [], s => s
  | [k], s => aesUnsubShift s ^^^ k
  | k :: t, s => aesUnrounds t (aesUnmix (aesUnsubShift s ^^^ k))

/-- AES-256 decryption of a block. -/
def aesDecrypt (key : BitVec 256) (block : BitVec 128) : BitVec 128 :=
  match (aesKeys key).reverse with
  | k :: t => aesUnrounds t (block ^^^ k)
  | [] => block

/-- The check value of a key (R167). -/
def checkValue (key : BitVec 256) : Word := (aesEncrypt key 0).extractLsb' 96 32

/-! ### Key wrap (SP 800-38F KW with its default initial value, Table 12.4) -/

/-- One step of the wrapping: register A and the semiblocks, for step number `n` on semiblock `i`. -/
def kwStep (key : BitVec 256) (st : BitVec 64 × List (BitVec 64)) (n i : Nat) : BitVec 64 × List (BitVec 64) :=
  let b := aesEncrypt key (st.1 ++ st.2.getD i 0)
  (b.extractLsb' 64 64 ^^^ BitVec.ofNat 64 n, st.2.set i (b.extractLsb' 0 64))

/-- One step of the unwrapping. -/
def kwUnstep (key : BitVec 256) (st : BitVec 64 × List (BitVec 64)) (n i : Nat) : BitVec 64 × List (BitVec 64) :=
  let b := aesDecrypt key ((st.1 ^^^ BitVec.ofNat 64 n) ++ st.2.getD i 0)
  (b.extractLsb' 64 64, st.2.set i (b.extractLsb' 0 64))

/-- The default initial value. -/
def kwIv : BitVec 64 := 0xA6A6A6A6A6A6A6A6

/-- The wrap of 64 bytes: six passes over eight semiblocks. -/
def kwWrap (key : BitVec 256) (p : BitVec 512) : BitVec 576 :=
  let first := (List.range 8).map (fun i => p.extractLsb' (448 - 64 * i) 64)
  let r := (List.range 48).foldl (fun st n => kwStep key st (n + 1) (n % 8)) (kwIv, first)
  (r.1 :: r.2).foldl (fun acc w => (acc <<< 64) ||| w.setWidth 576) 0

/-- The 64 bytes that 72 wrapped bytes hold, where the integrity check passes. -/
def kwUnwrap (key : BitVec 256) (c : BitVec 576) : Option (BitVec 512) :=
  let first := (List.range 8).map (fun i => c.extractLsb' (448 - 64 * i) 64)
  let r := (List.range 48).foldl (fun st n => kwUnstep key st (48 - n) ((47 - n) % 8)) (c.extractLsb' 512 64, first)
  if r.1 = kwIv then some (r.2.foldl (fun acc w => (acc <<< 64) ||| w.setWidth 512) 0) else none

/-! ### GCM with a 96-bit IV (SP 800-38D, R436) -/

/-- The product in GCM's field, whose bit 0 is the most significant. -/
def gcmMul (x y : BitVec 128) : BitVec 128 :=
  ((List.range 128).foldl (fun (st : BitVec 128 × BitVec 128) i =>
    (if x.getMsbD i then st.1 ^^^ st.2 else st.1,
     if st.2.getLsbD 0 then (st.2 >>> 1) ^^^ 0xE1000000000000000000000000000000 else st.2 >>> 1)) (0, y)).1

/-- A byte list in blocks, the last one padded with zeros. -/
def blocksOf (l : List Byte) : List (BitVec 128) :=
  (List.range ((l.length + 15) / 16)).map (fun j => blockOf (fun i => l.getD (16 * j + i) 0))

/-- GHASH of blocks under a hash key. -/
def ghash (h : BitVec 128) (l : List (BitVec 128)) : BitVec 128 := l.foldl (fun y x => gcmMul (y ^^^ x) h) 0

/-- The counter block of an IV: `n` is 1 for the tag and 2 for the first block of data. -/
def gcmCounter (iv : BitVec 96) (n : Nat) : BitVec 128 := iv ++ BitVec.ofNat 32 n

/-- Encryption, or decryption, of bytes in counter mode. -/
def gcmCrypt (key : BitVec 256) (iv : BitVec 96) (l : List Byte) : List Byte :=
  (List.range l.length).map (fun i => l.getD i 0 ^^^ blockByte (aesEncrypt key (gcmCounter iv (2 + i / 16))) (i % 16))

/-- The tag of additional data and ciphertext. -/
def gcmTag (key : BitVec 256) (iv : BitVec 96) (aad cipher : List Byte) : BitVec 128 :=
  let lengths : BitVec 128 := BitVec.ofNat 64 (8 * aad.length) ++ BitVec.ofNat 64 (8 * cipher.length)
  ghash (aesEncrypt key 0) (blocksOf aad ++ blocksOf cipher ++ [lengths]) ^^^ aesEncrypt key (gcmCounter iv 1)

/-! ### XTS over a data unit of 64 bytes (IEEE 1619, R441) -/

/-- A block with its bytes in the other order. -/
def blockFlip (s : BitVec 128) : BitVec 128 := blockOf (fun i => blockByte s (15 - i))

/-- The tweak of the next block: doubled as a little-endian number. -/
def xtsNext (t : BitVec 128) : BitVec 128 :=
  let n := blockFlip t
  blockFlip (if n.msb then (n <<< 1) ^^^ 0x87 else n <<< 1)

/-- The tweak of block `j` of data unit `unit` under Key2. -/
def xtsTweak (key : BitVec 512) (unit : Nat) : Nat → BitVec 128
  | 0 => aesEncrypt (key.extractLsb' 0 256) (blockFlip (BitVec.ofNat 128 unit))
  | j + 1 => xtsNext (xtsTweak key unit j)

/-- A data unit of 64 bytes through the cipher, block by block. -/
def xtsUnit (cipher : BitVec 128 → BitVec 128) (key : BitVec 512) (unit : Nat) (l : List Byte) : List Byte :=
  (List.range 4).flatMap (fun j =>
    let t := xtsTweak key unit j
    let c := cipher (blockOf (fun i => l.getD (16 * j + i) 0) ^^^ t) ^^^ t
    (List.range 16).map (blockByte c))

/-- Encryption of a data unit under Key1 and Key2. -/
def xtsEncrypt (key : BitVec 512) : Nat → List Byte → List Byte := xtsUnit (aesEncrypt (key.extractLsb' 256 256)) key

/-- Decryption of a data unit. -/
def xtsDecrypt (key : BitVec 512) : Nat → List Byte → List Byte := xtsUnit (aesDecrypt (key.extractLsb' 256 256)) key

/-! ### SHA-384 and HMAC-SHA-384 (FIPS 180-4, FIPS 198-1) -/

/-- The round constants. -/
def shaK : List (BitVec 64) := [
  0x428A2F98D728AE22, 0x7137449123EF65CD, 0xB5C0FBCFEC4D3B2F, 0xE9B5DBA58189DBBC,
  0x3956C25BF348B538, 0x59F111F1B605D019, 0x923F82A4AF194F9B, 0xAB1C5ED5DA6D8118,
  0xD807AA98A3030242, 0x12835B0145706FBE, 0x243185BE4EE4B28C, 0x550C7DC3D5FFB4E2,
  0x72BE5D74F27B896F, 0x80DEB1FE3B1696B1, 0x9BDC06A725C71235, 0xC19BF174CF692694,
  0xE49B69C19EF14AD2, 0xEFBE4786384F25E3, 0x0FC19DC68B8CD5B5, 0x240CA1CC77AC9C65,
  0x2DE92C6F592B0275, 0x4A7484AA6EA6E483, 0x5CB0A9DCBD41FBD4, 0x76F988DA831153B5,
  0x983E5152EE66DFAB, 0xA831C66D2DB43210, 0xB00327C898FB213F, 0xBF597FC7BEEF0EE4,
  0xC6E00BF33DA88FC2, 0xD5A79147930AA725, 0x06CA6351E003826F, 0x142929670A0E6E70,
  0x27B70A8546D22FFC, 0x2E1B21385C26C926, 0x4D2C6DFC5AC42AED, 0x53380D139D95B3DF,
  0x650A73548BAF63DE, 0x766A0ABB3C77B2A8, 0x81C2C92E47EDAEE6, 0x92722C851482353B,
  0xA2BFE8A14CF10364, 0xA81A664BBC423001, 0xC24B8B70D0F89791, 0xC76C51A30654BE30,
  0xD192E819D6EF5218, 0xD69906245565A910, 0xF40E35855771202A, 0x106AA07032BBD1B8,
  0x19A4C116B8D2D0C8, 0x1E376C085141AB53, 0x2748774CDF8EEB99, 0x34B0BCB5E19B48A8,
  0x391C0CB3C5C95A63, 0x4ED8AA4AE3418ACB, 0x5B9CCA4F7763E373, 0x682E6FF3D6B2B8A3,
  0x748F82EE5DEFB2FC, 0x78A5636F43172F60, 0x84C87814A1F0AB72, 0x8CC702081A6439EC,
  0x90BEFFFA23631E28, 0xA4506CEBDE82BDE9, 0xBEF9A3F7B2C67915, 0xC67178F2E372532B,
  0xCA273ECEEA26619C, 0xD186B8C721C0C207, 0xEADA7DD6CDE0EB1E, 0xF57D4F7FEE6ED178,
  0x06F067AA72176FBA, 0x0A637DC5A2C898A6, 0x113F9804BEF90DAE, 0x1B710B35131C471B,
  0x28DB77F523047D84, 0x32CAAB7B40C72493, 0x3C9EBE0A15C9BEBC, 0x431D67C49C100D4C,
  0x4CC5D4BECB3E42B6, 0x597F299CFC657E2A, 0x5FCB6FAB3AD6FAEC, 0x6C44198C4A475817]

/-- The initial hash value of SHA-384. -/
def shaInit : List (BitVec 64) := [
  0xCBBB9D5DC1059ED8, 0x629A292A367CD507, 0x9159015A3070DD17, 0x152FECD8F70E5939,
  0x67332667FFC00B31, 0x8EB44A8768581511, 0xDB0C2E0D64F98FA7, 0x47B5481DBEFA4FA4]

/-- One round: the eight working variables with the round's constant and schedule word. -/
def shaRound (v : List (BitVec 64)) (k w : BitVec 64) : List (BitVec 64) :=
  match v with
  | [a, b, c, d, e, f, g, h] =>
    let s1 := e.rotateRight 14 ^^^ e.rotateRight 18 ^^^ e.rotateRight 41
    let t1 := h + s1 + ((e &&& f) ^^^ (~~~e &&& g)) + k + w
    let s0 := a.rotateRight 28 ^^^ a.rotateRight 34 ^^^ a.rotateRight 39
    let t2 := s0 + ((a &&& b) ^^^ (a &&& c) ^^^ (b &&& c))
    [t1 + t2, a, b, c, d + t1, e, f, g]
  | _ => v

/-- The schedule's window moved on by one word. -/
def shaWindow (w : List (BitVec 64)) : List (BitVec 64) :=
  let x := w.getD 1 0
  let y := w.getD 14 0
  let s0 := x.rotateRight 1 ^^^ x.rotateRight 8 ^^^ (x >>> 7)
  let s1 := y.rotateRight 19 ^^^ y.rotateRight 61 ^^^ (y >>> 6)
  w.drop 1 ++ [w.getD 0 0 + s0 + w.getD 9 0 + s1]

/-- The rounds for the constants left. -/
def shaRounds : List (BitVec 64) → List (BitVec 64) → List (BitVec 64) → List (BitVec 64)
  | [], _, v => v
  | k :: t, w, v => shaRounds t (shaWindow w) (shaRound v k (w.headD 0))

/-- The hash value after a block of 128 bytes. -/
def shaBlock (h : List (BitVec 64)) (block : List Byte) : List (BitVec 64) :=
  let w := (List.range 16).map (fun i => BitVec.ofNat 64 (natOfBytes ((block.drop (8 * i)).take 8)))
  List.zipWith (· + ·) h (shaRounds shaK w h)

/-- The hash value after blocks; the first argument is how many there are. -/
def shaBlocks : Nat → List (BitVec 64) → List Byte → List (BitVec 64)
  | 0, h, _ => h
  | n + 1, h, l => shaBlocks n (shaBlock h (l.take 128)) (l.drop 128)

/-- SHA-384 of a byte list. -/
def sha384 (l : List Byte) : BitVec 384 :=
  let zeros := (239 - l.length % 128) % 128
  let padded := l ++ [0x80] ++ List.replicate zeros 0 ++ bytesOf 16 (8 * l.length)
  ((shaBlocks (padded.length / 128) shaInit padded).take 6).foldl (fun acc w => (acc <<< 64) ||| w.setWidth 384) 0

/-- HMAC-SHA-384 under a key of 32 bytes. -/
def hmac384 (key : BitVec 256) (l : List Byte) : BitVec 384 :=
  let k := bytesOf 32 key.toNat ++ List.replicate 96 0
  sha384 (k.map (· ^^^ 0x5C) ++ bytesOf 48 (sha384 (k.map (· ^^^ 0x36) ++ l)).toNat)

/-! ### The key hierarchy (R432, Table 12.2) -/

/-- KDF(K, label): the first 32 bytes of the HMAC of the label. -/
def kdf (key : BitVec 256) (label : List Byte) : BitVec 256 := (hmac384 key label).extractLsb' 128 256

/-- The ASCII bytes of "XS7240 " and a word. -/
def label (w : List Byte) : List Byte := [0x58, 0x53, 0x37, 0x32, 0x34, 0x30, 0x20] ++ w

/-- DBK: KDF(DUS, XS7240 binding). -/
def bindingKey (dus : BitVec 256) : BitVec 256 := kdf dus (label [0x62, 0x69, 0x6E, 0x64, 0x69, 0x6E, 0x67])

/-- BINDING_ID: the first 16 bytes of the HMAC of "XS7240 binding id" under the DBK. -/
def bindingIdOf (dus : BitVec 256) : BitVec 128 :=
  (hmac384 (bindingKey dus) (label [0x62, 0x69, 0x6E, 0x64, 0x69, 0x6E, 0x67, 0x20, 0x69, 0x64])).extractLsb' 256 128

/-- K_SEAL: KDF(IMK, XS7240 seal). -/
def sealKey (imk : BitVec 256) : BitVec 256 := kdf imk (label [0x73, 0x65, 0x61, 0x6C])

/-- K_HDR: KDF(IMK, XS7240 header). -/
def headerKey (imk : BitVec 256) : BitVec 256 := kdf imk (label [0x68, 0x65, 0x61, 0x64, 0x65, 0x72])

/-! ### ECDSA on P-384 with SHA-384 (FIPS 186, R151, R461) -/

/-- The field's prime. -/
def ecP : Nat := 2 ^ 384 - 2 ^ 128 - 2 ^ 96 + 2 ^ 32 - 1

/-- The order of the base point. -/
def ecN : Nat := 0xFFFFFFFFFFFFFFFFFFFFFFFFFFFFFFFFFFFFFFFFFFFFFFFFC7634D81F4372DDF581A0DB248B0A77AECEC196ACCC52973

/-- The base point. -/
def ecG : Nat × Nat × Nat :=
  (0xAA87CA22BE8B05378EB1C71EF320AD746E1D3B628BA79B9859F741E082542A385502F25DBF55296C3A545E3872760AB7,
   0x3617DE4A96262C6F5D9E98BF9292DC29F8F41DBD289A147CE9DA3113B5F0B8C00A60B1CE1D7E819D7A431D7C90EA0E5F, 1)

/-- `b` to the power of the number with bits `n - 1` to 0 of `e`, modulo `m`. -/
def powMod (m b e : Nat) : Nat → Nat
  | 0 => 1 % m
  | n + 1 =>
    let r := powMod m b (e / 2) n
    if e % 2 = 1 then r * r * b % m else r * r % m

/-- The inverse modulo a prime of 384 bits. -/
def invMod (m b : Nat) : Nat := powMod m b (m - 2) 384

/-- Subtraction in the field. -/
def ecSub (a b : Nat) : Nat := (a + ecP - b % ecP) % ecP

/-- The double of a point in Jacobian coordinates; the third coordinate 0 is the point at infinity. -/
def ecDouble (p : Nat × Nat × Nat) : Nat × Nat × Nat :=
  let (x, y, z) := p
  let zz := z * z % ecP
  let m := 3 * ecSub x zz * (x + zz) % ecP
  let yy := y * y % ecP
  let s := 4 * x * yy % ecP
  let x3 := ecSub (m * m) (2 * s)
  (x3, ecSub (m * ecSub s x3) (8 * yy * yy), 2 * y * z % ecP)

/-- The sum of two points. -/
def ecAdd (p q : Nat × Nat × Nat) : Nat × Nat × Nat :=
  let (x1, y1, z1) := p
  let (x2, y2, z2) := q
  if z1 = 0 then q
  else if z2 = 0 then p
  else
    let u1 := x1 * z2 * z2 % ecP
    let u2 := x2 * z1 * z1 % ecP
    let s1 := y1 * z2 * z2 * z2 % ecP
    let s2 := y2 * z1 * z1 * z1 % ecP
    let h := ecSub u2 u1
    let r := ecSub s2 s1
    if h = 0 then (if r = 0 then ecDouble p else (1, 1, 0))
    else
      let hh := h * h % ecP
      let hhh := h * hh % ecP
      let v := u1 * hh % ecP
      let x3 := ecSub (ecSub (r * r) hhh) (2 * v)
      (x3, ecSub (r * ecSub v x3) (s1 * hhh), z1 * z2 * h % ecP)

/-- `k` times a point, over `n` bits of `k`. -/
def ecMul (p : Nat × Nat × Nat) (k : Nat) : Nat → Nat × Nat × Nat
  | 0 => (1, 1, 0)
  | n + 1 =>
    let d := ecDouble (ecMul p (k / 2) n)
    if k % 2 = 1 then ecAdd d p else d

/-- The affine coordinates of a point. -/
def ecAffine (p : Nat × Nat × Nat) : Nat × Nat :=
  let i := invMod ecP p.2.2
  (p.1 * i * i % ecP, p.2.1 * i * i * i % ecP)

/-- The identity private key of a device-unique secret (Table 12.2). -/
def identityKey (dus : BitVec 256) : Nat :=
  (hmac384 dus (label [0x69, 0x64, 0x65, 0x6E, 0x74, 0x69, 0x74, 0x79])).toNat % (ecN - 1) + 1

/-- KEY_ID: the SHA-384 digest of the uncompressed encoding of the identity public key. -/
def keyIdOf (dus : BitVec 256) : BitVec 384 :=
  let (x, y) := ecAffine (ecMul ecG (identityKey dus) 384)
  sha384 (0x04 :: bytesOf 48 x ++ bytesOf 48 y)

/-- The signature (r, s) of a message under a private key, with the first of the given nonces that leaves neither number 0. -/
def ecdsaSign (key : Nat) (message : List Byte) : List Nat → BitVec 384 × BitVec 384
  | [] => (0, 0)
  | nonce :: rest =>
    let k := nonce % (ecN - 1) + 1
    let r := (ecAffine (ecMul ecG k 384)).1 % ecN
    let s := invMod ecN k * ((sha384 message).toNat + r * key) % ecN
    if r = 0 || s = 0 then ecdsaSign key message rest else (BitVec.ofNat 384 r, BitVec.ofNat 384 s)

end Sys2Proof.Machine
end

