-- ==== Sys2Proof/Machine/Page.lean ====
section
/-! DEFINITION. What stands in a flash page: the page layout with its BCH code, the metadata and sealing of a slot's pages, map
segments, and the bytes of an image header (R392 to R395, R401, R402, R436 to R439). -/
namespace Sys2Proof.Machine
open Sys2Proof

/-! ### The BCH code (R393) -/

/-- Product in GF(2^14) modulo x^14 + x^10 + x^6 + x + 1. -/
def bchMul (a b : BitVec 14) : BitVec 14 :=
  ((List.range 14).foldl (fun (st : BitVec 14 × BitVec 14) i =>
    (if b.getLsbD i then st.1 ^^^ st.2 else st.1, if st.2.msb then (st.2 <<< 1) ^^^ 0x0443 else st.2 <<< 1)) (0, a)).1

/-- The square of the element `n` times over. -/
def bchSquares (a : BitVec 14) : Nat → BitVec 14
  | 0 => a
  | n + 1 => let s := bchSquares a n; bchMul s s

/-- Powers of the primitive element. -/
def bchPow : Nat → BitVec 14
  | 0 => 1
  | n + 1 => bchMul (bchPow n) 2

/-- The coefficients of the minimal polynomial of alpha^i, lowest first: the product of x - r over its 14 conjugates r. -/
def bchMinimal (i : Nat) : List (BitVec 14) :=
  (List.range 14).foldl (fun (p : List (BitVec 14)) j =>
    let r := bchSquares (bchPow i) j
    List.zipWith (· ^^^ ·) (0 :: p) (p.map (bchMul r) ++ [0])) [1]

/-- A polynomial over GF(2) as a number, from coefficients that are 0 and 1. -/
def bchBits (p : List (BitVec 14)) : Nat := p.foldr (fun c acc => 2 * acc + c.toNat % 2) 0

/-- The product of polynomials over GF(2), the second of degree 14. -/
def bchTimes (a b : Nat) : Nat := (List.range 15).foldl (fun acc i => if b.testBit i then acc ^^^ (a <<< i) else acc) 0

/-- The generator polynomial: the products over the 14 conjugates of the odd powers up to 143 (t = 72). DESIGN CHOICE (log entry 42):
alpha^129 has 7 conjugates only, and its polynomial is taken twice, so that there are the 1 008 parity bits of R393. -/
def bchGenerator : Nat := (List.range 72).foldl (fun g i => bchTimes g (bchBits (bchMinimal (2 * i + 1)))) 1

/-- The 126 parity bytes of a data byte list: the remainder of the data times x^1008, highest-degree coefficient first. -/
def bchParity (l : List Byte) : List Byte :=
  let r := l.foldl (fun r b => (List.range 8).foldl (fun r i =>
    let s := 2 * r
    if s.testBit 1008 != b.getLsbD (7 - i) then (s ^^^ bchGenerator) % 2 ^ 1008 else s % 2 ^ 1008) r) 0
  bytesOf 126 r

/-- What a codeword of a read comes to: the bits corrected and whether a read retry was needed, or none where every attempt, the
first, one with each retry setting and one more without, leaves more than 72 errors (R393, R394). -/
def wordFate (retries : Nat) (w : WordRead) : Option (Nat × Bool) :=
  ((w.attempts.take (retries + 2)).zipIdx.find? (fun a => a.1.length ≤ 72)).map (fun a => (a.1.length, a.2 ≠ 0))

/-- The codewords of a read that stay uncorrectable. -/
def badWords (g : FlashGeom) (l : List WordRead) : List WordRead := l.filter (fun w => (wordFate g.retries w).isNone)

/-- A page of a read needed 48 or more corrected bits in a codeword, or a read retry (R420). -/
def needsMove (g : FlashGeom) (l : List WordRead) : Bool :=
  l.any (fun w => match wordFate g.retries w with | some (n, retry) => 48 ≤ n || retry | none => false)

/-- BCH_CORRECTED and BCH_UNCORRECTABLE count a read's codewords (R394). -/
def Dev.countWords (d : Dev) (l : List WordRead) : Dev :=
  let bad := (badWords d.img.geom l).length
  { d with img := { d.img with
      bchCorrected := satBits 32 (d.img.bchCorrected.toNat + (l.length - bad))
      bchUncorrectable := satBits 16 (d.img.bchUncorrectable.toNat + bad) } }

/-- The sectors of a slot that uncorrectable codewords leave unread: four data codewords to a sector, and every sector of a page whose
metadata, and so whose tags, cannot be read. -/
def badSectors (g : FlashGeom) (slot : Word) (l : List WordRead) : List Nat :=
  ((badWords g l).flatMap (fun w =>
    let p := (w.page - slot).toNat
    if 4 ≤ p then [] else if w.word = 16 then (List.range 4).map (4 * p + ·) else [4 * p + w.word / 4])).eraseDups

/-! ### Pages of a slot (Tables 11.2, 11.3, 12.3) -/

/-- Page `p` of a slot. -/
def FSlot.page (s : FSlot) (p : Nat) : FPage :=
  if s.kind = 1 then
    { kind := 1, index := s.index, copyGen := s.copyGen
      data := (s.data.filter (fun c => c.1 / 16384 = p)).map (fun c => (c.1 % 16384, c.2)) }
  else s.parts.getD p { kind := 0, index := 0, copyGen := 0, data := [] }

/-- The KEY_GEN field: the low 16 bits of a generation (R433). -/
def keyGenField (g : Word) : BitVec 16 := g.extractLsb' 0 16

/-- Metadata bytes 0 to 31 of page `p` (Table 11.3), which are the additional authenticated data of its sectors. -/
def FSlot.info (s : FSlot) (p : Nat) : List Byte :=
  let k := s.page p
  [BitVec.ofNat 8 (k.kind.toNat * 16 + p * 4 + (if s.taint then 2 else 0)), 0, 0, 0] ++ bytesOf 4 k.index ++ bytesOf 6 k.copyGen
    ++ bytesOf 2 (keyGenField s.keyGen).toNat ++ List.replicate 16 0

/-- The IV of a sector, from the metadata of its page (Table 12.3). -/
def sectorIv (info : List Byte) (sector : Nat) : BitVec 96 :=
  BitVec.ofNat 96 (natOfBytes (((info.headD 0 &&& 0xFC) ||| BitVec.ofNat 8 sector) :: (info.drop 4).take 10 ++ [0]))

/-- The plaintext of sector `s` of a page; what is not listed is 0x00 (R437). -/
def FPage.sector (k : FPage) (s : Nat) : List Byte := memBytes k.data (4096 * s) 4096

/-- The ciphertext and tag of sector `n` of page `p` (R436). -/
def FSlot.sealed (s : FSlot) (p n : Nat) : List Byte × BitVec 128 :=
  let info := s.info p
  let iv := sectorIv info n
  let c := gcmCrypt s.key iv ((s.page p).sector n)
  (c, gcmTag s.key iv info c)

/-- A page as it is programmed (Table 11.2): 16 data codewords, their parities, the metadata and its parity, and 0xFF in the spare
bytes that are left (R392). -/
def pageLayout (g : FlashGeom) (data info : List Byte) : List Byte :=
  let parity := (List.range 16).flatMap (fun n => bchParity ((data.drop (1024 * n)).take 1024))
  data ++ parity ++ info ++ bchParity info ++ List.replicate (g.pageBytes + g.spareBytes - 18622) 0xFF

/-- The bytes of page `p` of a slot, with fresh parity wherever the slot is programmed (R392, R395, R417). -/
def FSlot.bytes (g : FlashGeom) (s : FSlot) (p : Nat) : List Byte :=
  let cut := (List.range 4).map (fun n => s.sealed p n)
  pageLayout g (cut.flatMap (·.1)) (s.info p ++ cut.flatMap (fun c => bytesOf 16 c.2.toNat))

/-! ### Map segments and the keeper record (R401, R403) -/

/-- The entry of a granule in a segment written to flash, where DIRTY is always 0 (R400). -/
def entryBytes (e : GEntry) : List Byte := bytesOf 8 ({ e with dirty := false } : GEntry).bits.toNat

/-- The non-zero bytes of segment `n` of a map over a number of granules. -/
def segmentCells (m : List (Nat × GEntry)) (granules n : Nat) : List Host.Cell :=
  (List.range (min 2048 (granules - 2048 * n))).flatMap (fun i =>
    ((entryBytes (mapGet m (2048 * n + i))).zipIdx.filter (fun b => b.1 ≠ 0)).map (fun b => (8 * i + b.2, b.1)))

/-- The page of segment `n`. -/
def segmentPage (m : List (Nat × GEntry)) (granules n copyGen : Nat) : FPage :=
  { kind := 2, index := n, copyGen := copyGen, data := segmentCells m granules n }

/-- The keeper record page; the spec gives no layout of the record in it (log entry 41). -/
def keeperRecordPage (copyGen : Nat) : FPage :=
  { kind := 3, index := 0, copyGen := copyGen, data := (List.range 16384).map (fun i => (i, Config.keeperByte copyGen i)) }

/-! ### Image headers (Tables 11.5 and 12.4, R438) -/

/-- KEY_BLOCK. -/
def keyBlock (h : Header) : List Byte :=
  bytesOf 72 h.wrapDev.toNat ++ bytesOf 72 h.wrapEsc.toNat ++ wordBytes h.oldKeyGen ++ List.replicate 36 0

/-- Header bytes 0 to 16 351. -/
def headerBody (h : Header) : List Byte :=
  let w := wordBytes
  let fields := [0x58, 0x53, 0x49, 0x48, 0x01, BitVec.ofNat 8 h.hkind, 0, 0] ++ w h.generation ++ bytesOf 6 h.seqReserve
    ++ [h.commitCause.setWidth 8, h.flags] ++ w h.granules ++ w h.unsaved ++ w h.tainted ++ w h.rekeyBoundary
    ++ bytesOf 4 ((h.granules.toNat + 2047) / 2048) ++ w h.keeperPage ++ w h.installedMib ++ bytesOf 16 h.bindingId.toNat
    ++ w h.escrowCheck ++ w h.keyGen ++ keyBlock h
  let dir := h.segmentDir.flatMap w
  fields ++ List.replicate 3840 0 ++ dir ++ List.replicate (12256 - dir.length) 0

/-- AUTH of a header under the IMK of its IMAGE_KEY_GEN. -/
def headerAuth (imk : BitVec 256) (h : Header) : BitVec 128 := (hmac384 (headerKey imk) (headerBody h)).extractLsb' 256 128

/-- Header bytes 0 to 16 379, which the CRC-32 covers. -/
def headerCovered (h : Header) : List Byte := headerBody h ++ bytesOf 16 h.auth.toNat ++ List.replicate 12 0

/-- A header whose CRC is right. -/
def headerSound (h : Header) : Bool := h.crc = crc32 (headerCovered h)

/-- A header as the device writes it: AUTH under an IMK, and the CRC. -/
def headerSealed (imk : BitVec 256) (h : Header) : Header :=
  let a := { h with auth := headerAuth imk h }
  { a with crc := crc32 (headerCovered a) }

/-- The 16 384 data bytes of a header page. -/
def headerPage (h : Header) : List Byte := headerCovered h ++ wordBytes h.crc

/-- The keys a wrap holds under a key: IMK_NEW and IMK_OLD (Table 12.4). -/
def openWrap (key : BitVec 256) (wrap : BitVec 576) : Option (BitVec 256 × BitVec 256) :=
  (kwUnwrap key wrap).map (fun p => (p.extractLsb' 256 256, p.extractLsb' 0 256))

/-! ### Reading sealed sectors back (R436, R440) -/

/-- Image keys with their generations. -/
structure ImageKeys where
  imk : BitVec 256
  gen : Word
  imkOld : BitVec 256
  oldGen : Word
  deriving DecidableEq, Repr

/-- The image keys the device holds. -/
def Dev.imageKeys (d : Dev) : Option ImageKeys :=
  if d.cip.bound then some { imk := d.cip.imk, gen := d.cip.imkGen, imkOld := d.cip.imkOld, oldGen := d.cip.oldGen } else none

/-- The IMK that a sector's KEY_GEN names, by its low 16 bits. -/
def sectorImk (keys : Option ImageKeys) (r : SectorRead) : Option (BitVec 256) :=
  let k := r.info.getD 14 0 ++ r.info.getD 15 0
  match keys with
  | some h => if keyGenField h.gen = k then some h.imk else if keyGenField h.oldGen = k then some h.imkOld else none
  | none => none

/-- The tag of a sector that was not read as sealed passes under the keys held. -/
def sectorOpens (keys : Option ImageKeys) (r : SectorRead) : Bool :=
  r.data.length = 4096 && (match sectorImk keys r with
    | some k => r.tag = gcmTag (sealKey k) (sectorIv r.info r.sector) r.info r.data
    | none => false)

/-- The plaintext of such a sector, which counter mode gives whether or not its tag passes. -/
def sectorPlain (keys : Option ImageKeys) (r : SectorRead) : List Byte :=
  gcmCrypt (sealKey ((sectorImk keys r).getD 0)) (sectorIv r.info r.sector) r.data

/-- The sectors of a slot, by their number there, that were not read as sealed. -/
def alteredIn (slot : Word) (l : List SectorRead) : List (Nat × SectorRead) :=
  (l.filter (fun r => (r.page - slot).toNat < 4)).map (fun r => (4 * (r.page - slot).toNat + r.sector, r))

/-- The sectors of a slot whose tags fail. -/
def Dev.forgedIn (d : Dev) (slot : Word) (l : List SectorRead) : List Nat :=
  ((alteredIn slot l).filter (fun r => !sectorOpens d.imageKeys r.2)).map (·.1)

/-- The non-zero plaintext bytes of a slot as read: `held` but for the sectors read otherwise. -/
def Dev.readPlain (d : Dev) (slot : Word) (l : List SectorRead) (held : List Host.Cell) : List Host.Cell :=
  let other := alteredIn slot l
  held.filter (fun c => !other.any (fun r => r.1 = c.1 / 4096))
    ++ other.flatMap (fun r => ((sectorPlain d.imageKeys r.2).zipIdx.filter (fun b => b.1 ≠ 0)).map (fun b => (4096 * r.1 + b.2, b.1)))

/-- A page that a read leaves unusable under the keys: an uncorrectable codeword, or a tag that fails. -/
def pageFails (g : FlashGeom) (keys : Option ImageKeys) (reads : List WordRead) (altered : List SectorRead) (page : Word) : Bool :=
  (badWords g reads).any (fun w => w.page = page) || altered.any (fun r => r.page = page && !sectorOpens keys r)

end Sys2Proof.Machine
end

