-- ==== Sys2Proof/Machine/Mule.lean ====
section
/-! DEFINITION. Mule's work on flash: keys and image headers, granule copies, retirement, the atomic commit, the phases of
SAVE from the marker on, and the choice of the next granule to save, trickle, flush or restore (chapters 11, 12, 15 and 16). -/
namespace Sys2Proof.Machine
open Sys2Proof

/-! ### Keys and headers (R402, R432 to R444) -/

/-- The device binding key. -/
def Dev.dbk (d : Dev) : BitVec 256 := bindingKey d.ident.dus

/-- The next draw of the entropy source: its number, which is never 0, and the device past it. -/
def Dev.draw (d : Dev) : Nat × Dev := (d.free + 1, { d with free := d.free + 1 })

/-- The image master key of a draw. -/
def imkOf (n : Nat) : BitVec 256 := (Config.entropy n).setWidth 256

/-- A new IMK takes the generation one above every one known (R434); IMK_OLD equals it while no re-key is pending (R439). -/
def Dev.drawImk (d : Dev) : Dev :=
  let (n, d1) := d.draw
  let gen := (if d.cip.headerGen < d.cip.imkGen then d.cip.imkGen else d.cip.headerGen) + 1
  { d1 with cip := { d1.cip with imk := imkOf n, imkOld := imkOf n, imkGen := gen, oldGen := gen, bound := true } }

/-- WRAP_ESC and ESCROW_CHECK (R444): under the installed key, copied from the committed header, or 0. -/
def Dev.escrowOf (d : Dev) (old : BitVec 256) (oldGen : Word) : BitVec 576 × Word :=
  match d.cip.escrow with
  | some k => (kwWrap k (d.cip.imk ++ old), checkValue k)
  | none =>
    match d.img.candidate with
    | some h => if h.keyGen = d.cip.imkGen && h.oldKeyGen = oldGen then (h.wrapEsc, h.escrowCheck) else (0, 0)
    | none => (0, 0)

/-- Whether the image re-key has reached its end, so that the next commit is its last (R451). -/
def Dev.rekeyFinal (d : Dev) : Bool := match d.cip.goat with | some g => g.target = 0 && g.finishing | none => false

/-- Whether a header written now records an image re-key (R451, R452). -/
def Dev.rekeyPending (d : Dev) : Bool := d.cip.rekeyActive.getLsbD 0 && !d.rekeyFinal

/-- A header of a kind with its generation, cause and map (Table 11.5). -/
def Dev.headerFor (d : Dev) (hkind : Nat) (gen : Word) (cause : BitVec 3) (m : List (Nat × GEntry)) (keeperPage : Word)
    (dir : List Word) : Header :=
  let pending := d.rekeyPending
  let old := if pending then d.cip.imkOld else d.cip.imk
  let oldGen := if pending then d.cip.oldGen else d.cip.imkGen
  let unsaved := (m.filter (fun p => p.2.stale)).length
  let tainted := (m.filter (fun p => p.2.taint)).length
  let (wrapEsc, check) := d.escrowOf old oldGen
  headerSealed d.cip.imk
    { hkind := hkind, generation := gen, seqReserve := d.img.copyGen + 2 ^ 24, commitCause := cause
      flags := BitVec.ofNat 8 (bit (unsaved ≠ 0) 0 + bit pending 3 + bit (tainted ≠ 0) 4)
      granules := if hkind = 0 then d.dcfg.granules else 0, unsaved := BitVec.ofNat 32 unsaved, tainted := BitVec.ofNat 32 tainted
      rekeyBoundary := if pending then d.cip.imageBoundary else 0, keeperPage := keeperPage, installedMib := d.dcfg.installedMib
      bindingId := bindingIdOf d.ident.dus, escrowCheck := check, keyGen := d.cip.imkGen, oldKeyGen := oldGen
      wrapDev := kwWrap d.dbk (d.cip.imk ++ old), wrapEsc := wrapEsc, segmentDir := dir, auth := 0, crc := 0 }

/-! ### The wear governor's checks (R415, R416) -/

/-- WEAR_LIMIT once, and TRICKLE_THROTTLED when the day's allowance is used. -/
def Dev.wearCheck (d : Dev) : Dev :=
  let d1 := if !d.img.wearLimited && d.lifeSpent then
      ({ d with img := { d.img with wearLimited := true } }).emit 0x0C06 (satBits 32 d.img.lifeGib).toNat else d
  if !d1.img.throttled && d1.img.allowDayMib.toNat ≤ d1.img.usedMib then
    ({ d1 with img := { d1.img with throttled := true } }).emit 0x0C05 1
  else d1

/-- Pages programmed, with the governor's checks. -/
def Dev.programmed (d : Dev) (pages : Nat) : Dev := (d.wrote pages).wearCheck

/-! ### Flash operations -/

/-- Start a flash operation. -/
def Dev.startOp (d : Dev) (op : FlashOp) : Dev :=
  { d with img := { d.img with ops := d.img.ops ++ [(d.img.nextOp, op)], nextOp := d.img.nextOp + 1 } }

/-- An operation has ended. -/
def Dev.endOp (d : Dev) (id : Nat) : Dev := { d with img := { d.img with ops := d.img.ops.filter (fun o => o.1 ≠ id) } }

/-- A copy with this id, changed. -/
def Dev.onCopy (d : Dev) (id : Nat) (f : Copy → Copy) : Dev :=
  { d with img := { d.img with copies := d.img.copies.map (fun (c : Copy) => if c.id = id then f c else c) } }

/-- A copy is no longer in flight. -/
def Dev.endCopy (d : Dev) (id : Nat) : Dev := { d with img := { d.img with copies := d.img.copies.filter (fun c => c.id ≠ id) } }

/-- The slot that holds a page address. -/
def slotOf (a : Word) : Word := a &&& 0xFFFFFFFC

/-- Slots the committed header and the working directory name for map segments and the keeper record (R403, R417). -/
def Dev.metaSlots (d : Dev) : List Word :=
  (d.img.dir.map slotOf) ++ (match d.img.candidate with
    | some h => (h.segmentDir ++ (if h.keeperPage = 0 then [] else [h.keeperPage])).map slotOf
    | none => [])
    ++ (match d.img.commit with | some c => (c.dir ++ [c.keeperPage]).map slotOf | none => [])

/-- Whether a slot is live (R417). -/
def Dev.live (d : Dev) (a : Word) : Bool :=
  d.img.gmap.any (fun p => p.2.st = 1 && p.2.slot = a) || d.img.committed.any (fun p => p.2.st = 1 && p.2.slot = a)
    || (match d.img.commit with | some c => c.map.any (fun p => p.2.st = 1 && p.2.slot = a) | none => false)
    || d.metaSlots.contains a || d.img.copies.any (fun c => c.slot = a || c.fromSlot = a)

/-- The programmed slots of a block group that are live. -/
def Dev.liveIn (d : Dev) (group : Word) : List Word :=
  ((d.img.slots.filter (fun s => groupOf d.img.geom s.addr = group)).map (·.addr)).filter d.live

/-- A slot is to be relocated (R417). -/
def Dev.askMove (d : Dev) (slot : Word) (gc : Bool) : Dev :=
  if d.img.relocs.any (fun r => r.slot = slot) then d
  else { d with img := { d.img with relocs := d.img.relocs ++ [{ slot := slot, gc := gc, read := false }] } }

/-- A group's live slots are to be relocated. -/
def Dev.relocate (d : Dev) (group : Word) (gc : Bool) : Dev := (d.liveIn group).foldl (fun d a => d.askMove a gc) d

/-- Retire a block group, but none of a lost target (R661); `op` is 0 for a program and 1 for an erase (Table 11.13). -/
def Dev.retire (d : Dev) (group : Word) (op : Nat) : Dev :=
  if d.img.retired.contains group || d.onLost group then d
  else
    let d1 := { d with img := { d.img with
      retired := d.img.retired ++ [group], badBlocks := satBits 16 (d.img.badBlocks.toNat + d.img.geom.planes) } }
    (d1.emit 0x0C03 (packBytes [(4, group.toNat), (1, op)])).relocate group false

/-! ### Granule copies (R409, R410) -/

/-- The condition under which the device holds image keys and may write an image (R423, R424, R462). -/
def Dev.canWrite (d : Dev) : Bool := d.img.usable && !d.img.deferred && d.cip.bound

/-- The ring of the primary or of the secondary copy, and its block groups (R397). -/
def Dev.ring (d : Dev) (primary : Bool) : Ring := if primary then d.img.primary else d.img.secondary

/-- A ring, changed. -/
def Dev.onRing (d : Dev) (primary : Bool) (f : Ring → Ring) : Dev :=
  { d with img := if primary then { d.img with primary := f d.img.primary } else { d.img with secondary := f d.img.secondary } }

/-- The four block groups of a ring. -/
def Dev.ringGroups (d : Dev) (primary : Bool) : List Word := (d.img.sys.drop (if primary then 0 else 8)).take 4

/-- The target that holds a ring is lost (R661). -/
def Dev.ringLost (d : Dev) (primary : Bool) : Bool := d.img.lost.getLsbD (if primary then 0 else 8)

/-- The ring whose program counts first: the primary, or the secondary while the primary's target is lost (log entry 70). -/
def Dev.mainRing (d : Dev) : Bool := !d.ringLost true

/-- Pages of a block group. -/
def groupPages (g : FlashGeom) : Nat := 4 * groupSlots g

/-- The headers for which a block group of their ring is kept: the newest valid commit or empty-image header, the newest valid header,
and the one written before it (R398). -/
def ringKeeps (r : Ring) : List Nat :=
  let sound := (r.pages.reverse.filter (fun p => headerSound p.2))
  let image := (sound.find? (fun p => p.2.hkind = 0 || p.2.hkind = 2)).map (·.1)
  match sound with
  | [] => []
  | p :: _ =>
    let before := ((r.pages.reverse.dropWhile (fun q => q.1 ≠ p.1)).drop 1).head?
    p.1 :: (before.map (·.1)).toList ++ image.toList

/-- Where a ring's next header goes: the next page; at the start of a block group, that group or the first after it that is neither
retired nor kept, and whether it must be erased first (R398; log entry 70). -/
def Dev.ringPlace (d : Dev) (primary : Bool) : Nat × Bool :=
  let r := d.ring primary
  let per := groupPages d.img.geom
  let n := r.next % (4 * per)
  if n % per ≠ 0 then (n, false)
  else
    let holds := fun (k : Nat) => r.pages.any (fun p => p.1 / per = k)
    let may := fun (k : Nat) =>
      !d.img.retired.contains ((d.ringGroups primary).getD k 0) && (!holds k || !(ringKeeps r).any (fun p => p / per = k))
    match ((List.range 4).map (fun i => (n / per + i) % 4)).find? may with
    | some k => (k * per, holds k)
    | none => (n, false)

/-- Start the program of a header on a ring, with the erase of its block group where one is needed; a lost target takes none. -/
def Dev.startHeader (d : Dev) (primary : Bool) (op : FlashOp) : Dev :=
  if d.ringLost primary then d
  else
    let (n, wipe) := d.ringPlace primary
    let d1 := d.onRing primary (fun r => { r with next := n })
    let group := (d.ringGroups primary).getD (n / groupPages d.img.geom) 0
    (if wipe then { d1 with img := { d1.img with erases := d1.img.erases ++ [group] } } else d1).startOp op

/-- A header of a ring waits for the erase of its block group. -/
def Dev.ringErasing (d : Dev) (primary : Bool) : Bool := (d.ringGroups primary).any d.img.erases.contains

/-- The program of a ring's page has reported: a page that failed holds no header. -/
def Dev.ringWritten (d : Dev) (primary : Bool) (h : Header) (pass : Bool) : Dev :=
  d.onRing primary (fun r => { next := r.next + 1, pages := if pass then r.pages ++ [(r.next, h)] else r.pages })

/-- The reservation header, before the first copy generation; in SAVE the marker takes its place, but for a commit that runs to its end
before the marker (R404, Table 15.2). -/
def Dev.reserve (d : Dev) : Dev :=
  if (d.ctl.mode = .save && d.img.commit.isNone) || d.img.ops.any (fun o => match o.2 with | .reserve _ _ => true | _ => false) then d
  else d.startHeader d.mainRing (.reserve d.mainRing (d.headerFor 3 d.img.generation 0 [] 0 []))

/-- The commit of Table 11.6 cause 5 is due (R404). -/
def Dev.reserveDue (d : Dev) : Bool :=
  d.img.wroteHeader && d.ctl.mode = .operate && d.img.seqReserve ≤ d.img.copyGen + 2 ^ 22
    && d.img.commit.isNone && !d.img.commitAsked.contains 5

/-- E1 of a calibration, at the first granule program of SAVE (R500). -/
def Dev.calFirst (d : Dev) : Dev :=
  if d.egy.calRunning && d.ctl.mode = .save && d.egy.cal1.isNone then { d with egy := { d.egy with cal1 := some d.storeEnergy } } else d

/-- Start the program of a copy whose data is read, with the next copy generation (R404). -/
def Dev.programCopy (d : Dev) (c : Copy) : Dev :=
  if !d.img.wroteHeader then d.reserve
  else if d.img.seqReserve ≤ d.img.copyGen + 1 then d
  else
    let d1 := { d with img := { d.img with copyGen := d.img.copyGen + 1 } }
    let d2 := (d1.onCopy c.id (fun c => { c with copyGen := d1.img.copyGen, keyGen := d.cip.imkGen })).calFirst
    if d2.reserveDue then { d2 with img := { d2.img with commitAsked := d2.img.commitAsked ++ [5] } } else d2

/-- Start every copy that waits to program. -/
def Dev.programAll (d : Dev) : Dev :=
  (d.img.copies.filter (fun c => c.job.isNone && c.copyGen = 0 && c.purpose ≠ 5)).foldl (fun d c => d.programCopy c) d

/-- A copy abandoned or failed: DIRTY becomes 1 unless the granule has been overtaken (R409). -/
def Dev.dropCopy (d : Dev) (c : Copy) : Dev :=
  let d1 := d.endCopy c.id
  if c.purpose ≤ 2 || c.purpose = 4 then (if c.took then d1.setDirty c.granule else d1) else d1

/-- Mule takes a granule: DIRTY becomes 0, and a poisoned granule's copy is tainted (R409, R460). -/
def Dev.takeCopy (d : Dev) (id : Nat) : Dev :=
  match d.img.copies.find? (fun c => c.id = id) with
  | some c =>
    if c.took then d
    else (d.onCopy id (fun k => { k with took := true, taint := k.taint || d.poisoned k.granule })).onEntry c.granule (fun e => { e with dirty := false })
  | none => d

/-- A granule is finished in SAVE. -/
def Dev.saveCount (d : Dev) (programmed : Nat) : Dev :=
  if d.ctl.mode = .save then
    { d with sav := { d.sav with finished := d.sav.finished + 1, programmed := d.sav.programmed + programmed } }
  else d

/-- E2 of a calibration: the end of the latest granule program (R500). -/
def Dev.calLast (d : Dev) : Dev :=
  if d.egy.calRunning && d.ctl.mode = .save then { d with egy := { d.egy with cal2 := some d.storeEnergy } } else d

/-- The DRAM reads of a copy have finished: a zero granule needs no pages (R410); any other is programmed. -/
def Dev.copyRead (d : Dev) (c : Copy) (j : Job) : Dev :=
  let data := (j.buffer.filter (fun x => x.2 ≠ 0)).map (fun (x : Host.Cell) => (x.1 - c.granule * 65536, x.2))
  let taint := c.taint || j.tainted
  if c.purpose = 6 then d.endCopy c.id
  else if j.stopped then d.dropCopy c
  else if data.isEmpty && !taint then
    ((d.endCopy c.id).onEntry c.granule (fun e => { GEntry.zero with dirty := e.dirty })).saveCount 0
  else
    (d.onCopy c.id (fun k => { k with job := none, data := data, taint := taint })).programCopy { c with job := none, data := data, taint := taint }

/-- A copy begins: its slot is chosen and its bursts are to be read; in SAVE the bursts of offline channels are zeros and
taint it (R548). -/
def Dev.newCopy (d : Dev) (g purpose : Nat) (slot : Word) : Dev :=
  let all := granuleBursts g
  let online := if d.mc.any (·.offline) then all.filter (fun b => !(d.chan (d.channelOf b)).offline) else all
  let j : Job := { reads := online, writes := [], queued := 0, buffer := [], stopped := false, tainted := false }
  let c : Copy :=
    { id := d.img.nextOp, granule := g, slot := slot, copyGen := 0, taint := online.length ≠ all.length, purpose := purpose
      job := some j, took := false, data := [], fromSlot := 0, keyGen := 0 }
  let d1 := { d with img := { d.img with copies := d.img.copies ++ [c], nextOp := d.img.nextOp + 1 } }
  if online.isEmpty then
    let d2 := d1.takeCopy c.id
    d2.copyRead { c with taint := true, took := true } j
  else d1

/-- The entry a finished copy leaves (R409): DIRTY as it stands. -/
def copyEntry (c : Copy) (e : GEntry) : GEntry :=
  { st := 1, taint := c.taint, dirty := e.dirty, stale := false, genLo := BitVec.ofNat 24 c.copyGen, slot := c.slot }

/-- The IMK of a generation the device holds. -/
def Dev.imkFor (d : Dev) (gen : Word) : BitVec 256 := if gen = d.cip.imkGen then d.cip.imk else d.cip.imkOld

/-- The slot a copy has programmed: its own under the K_SEAL of its generation, or the relocated one bit for bit (R417, R436). -/
def Dev.programmedSlot (d : Dev) (c : Copy) : FSlot :=
  let own : FSlot := { addr := c.slot, kind := 1, index := c.granule, copyGen := c.copyGen, keyGen := c.keyGen, taint := c.taint
                       data := c.data, parts := [], key := sealKey (d.imkFor c.keyGen) }
  if c.purpose = 5 then
    (match d.img.slots.find? (fun s => s.addr = c.fromSlot) with
     | some s => { s with addr := c.slot }
     | none => { own with
        keyGen := d.cip.oldGen, key := sealKey d.cip.imkOld
        data := (List.range 65536).map (fun i => (i, Config.storedByte c.fromSlot.toNat i)) })
  else own

/-- A relocated slot replaces the old one in the working map and the working directory (R417). -/
def Dev.relocated (d : Dev) (c : Copy) : Dev :=
  { d with img := { d.img with
    gmap := d.img.gmap.map (fun (p : Nat × GEntry) => if p.2.st = 1 && p.2.slot = c.fromSlot then (p.1, { p.2 with slot := c.slot }) else p)
    dir := d.img.dir.map (fun a => if slotOf a = c.fromSlot then c.slot ||| (a &&& 3) else a) } }

/-- A granule copy passes: the working entry names it, under the condition of its kind (R409, R450, R417). -/
def Dev.copyPass (d : Dev) (c : Copy) : Dev :=
  let d0 := d.endCopy c.id
  let d1 := { d0 with img := { d0.img with
    slots := d0.img.slots ++ [d.programmedSlot c], changed := true
    shareCredit := if c.purpose = 0 then min 3 (d0.img.shareCredit + 1) else d0.img.shareCredit } }
  if c.purpose ≤ 2 || c.purpose = 4 then
    ((d1.onEntry c.granule (copyEntry c)).saveCount 1).calLast
  else if c.purpose = 3 then
    (if (d1.entry c.granule).st = 1 && (d1.entry c.granule).slot = c.fromSlot then d1.onEntry c.granule (copyEntry c) else d1)
  else if c.purpose = 5 then d1.relocated c
  else d1

/-- A program of a copy fails: its block group is retired and the copy is written in another slot, on the same target where
it has one (Table 11.13, R546). -/
def Dev.copyFail (d : Dev) (c : Copy) : Dev :=
  let d1 := d.retire (groupOf d.img.geom c.slot) 0
  let next := if d1.targets.contains (targetOf c.slot) then (match d1.erasedOn (targetOf c.slot) with | some a => some a | none => d1.nextSlot)
    else d1.nextSlot
  match next with
  | some a =>
    let d2 := d1.onCopy c.id (fun k => { k with slot := a, copyGen := if k.purpose = 5 then k.copyGen else 0 })
    if c.purpose = 5 then d2 else d2.programCopy { c with slot := a, copyGen := 0 }
  | none => d1.dropCopy c

/-! ### Calibration and the record set (R399, R500) -/

/-- SAVE is under way: not abandoned, and no shutdown has begun. -/
def Dev.saving (d : Dev) : Bool := d.ctl.mode = .save && !d.sav.abandoned && !d.shutting

/-- The result of a calibration (R500), or none when it succeeds. -/
def Dev.calResult (d : Dev) : Nat :=
  if d.sav.programmed < 16384 then 5
  else if d.egy.calScans = 0 || -d.egy.calSum < 200 * (d.egy.calScans : Int) then 6
  else 0

/-- `a / b` rounded up. -/
def ceilDiv (a b : Nat) : Nat := (a + b - 1) / b

/-- E3 of a calibration and its outcome, at the commit or at the end of a skip (R500). -/
def Dev.calEnd (d : Dev) : Dev :=
  if !d.egy.calRunning then d
  else
    let r := d.calResult
    let d1 := ({ d with egy := { d.egy with calRunning := false } }).emitAt 0x0110 0x0E12 (packBytes [(1, 1), (1, r)])
    if r ≠ 0 then d1
    else
      let e := fun (o : Option Nat) => ((o.getD 0 : Nat) : Int)
      let spent := e d.egy.cal1 - e d.egy.cal2
      let fixed := (e d.egy.cal0 - e d.egy.cal1) + (e d.egy.cal2 - (d.storeEnergy : Int))
      let pj := if spent ≤ 0 then 1 else max 1 (ceilDiv (11 * spent.toNat) (20000 * 65536 * d.sav.programmed))
      let mj := if fixed < 0 then d.fresh else ceilDiv (11 * fixed.toNat) (2 * 10 ^ 13)
      { d1.used with egy := { d1.egy with costPj := satBits 32 pj, costFixed := satBits 32 mj } }

/-- The newer valid half of the record area (R399). -/
def newestRecords (l : List (Option RecordSet)) : Option RecordSet :=
  l.foldl (fun acc r => match acc, r with
    | some a, some b => if b.valid && (!a.valid || a.serial < b.serial) then some b else some a
    | none, some b => if b.valid then some b else none
    | a, none => a) none

/-- The record set that counts. -/
def Dev.recordSet (d : Dev) : Option RecordSet := newestRecords d.img.records

/-- The half written next: not the one that counts. -/
def Dev.recordHalf (d : Dev) : Nat := if (d.img.records.getD 0 none).map (·.serial) = d.recordSet.map (·.serial) then 1 else 0

/-- The record set as it stands (R399). -/
def Dev.recordNow (d : Dev) : RecordSet :=
  { valid := true, serial := (match d.recordSet with | some r => r.serial + 1 | none => 1), blocks := d.img.blockCycles
    bad := d.img.retired, scrubHours := d.img.scrubHours, ratedCycles := d.img.ratedWritten, usedPages := d.img.usedPages, lifePages := d.img.lifePages
    serviceDays := d.img.serviceDays, peMax := d.img.peMax, peAvg := d.img.peAvg, badBlocks := d.img.badBlocks
    scrubPasses := d.img.scrubPasses, capMf := d.egy.capMf, esr := d.egy.esr
    testAge := satBits 16 (d.egy.testAgeMs / 3600000), costFixed := d.egy.costFixed, costPj := d.egy.costPj
    calibrated := d.egy.costFixed ≠ 0 || d.egy.costPj ≠ 20000, hist := d.therm.hist, tMax := d.therm.tMax, mirror := d.rail.snaps }

/-- A record set is being written. -/
def Dev.recordsRunning (d : Dev) : Bool := d.img.ops.any (fun o => match o.2 with | .records _ => true | _ => false)

/-- Start writing the record set into the other half, on each copy whose target is not lost (R399, R661). -/
def Dev.startRecords (d : Dev) : Dev :=
  if !d.img.usable || d.recordsRunning || (d.ringLost true && d.ringLost false) then d
  else
    let r := d.recordNow
    ({ d with img := { d.img with recordDue := false, records := d.img.records.set d.recordHalf none } }).startOp (.records r)

/-! ### The commit (R403 to R406, R422) -/

/-- The occasions on which a commit other than SAVE's may begin (R406, R462): in OPERATE, and in SAVE that of an IMAGE_DISCARD accepted
before it. -/
def Dev.mayCommit (d : Dev) (cause : Nat) : Bool :=
  d.canWrite && ((d.ctl.mode = .operate && !d.awaits) || (cause = 3 && (d.ctl.mode = .operate || d.ctl.mode = .save)))

/-- A copy is programming. -/
def Dev.programming (d : Dev) : Bool := d.img.copies.any (fun c => c.job.isNone && c.copyGen ≠ 0)

/-- The map a commit writes (R403): DIRTY 0; STALE where DIRTY is 1, and kept where the granule still awaits restore. -/
def Dev.commitMap (d : Dev) : List (Nat × GEntry) :=
  (d.img.gmap.map (fun (p : Nat × GEntry) => (p.1, { p.2 with
    dirty := false, stale := p.2.dirty || (p.2.stale && d.rst.unrestored.contains p.1) }))).filter (fun p => p.2 ≠ GEntry.zero)

/-- The entries of segment `n` of a map. -/
def segmentOf (m : List (Nat × GEntry)) (n : Nat) : List (Nat × GEntry) := m.filter (fun p => p.1 / 2048 = n)

/-- The generation of the key a slot is sealed under; a slot the model's flash does not hold was sealed under the older key. -/
def Dev.slotKey (d : Dev) (a : Word) : Word :=
  match d.img.slots.find? (fun s => s.addr = a) with
  | some s => s.keyGen
  | none => d.cip.oldGen

/-- The segments a commit must write: those that changed, all when the directory does not name them, and in the last commit of a re-key
those under the old key, which is destroyed then (R403, R451). -/
def Dev.segmentsToWrite (d : Dev) (m : List (Nat × GEntry)) : List Nat :=
  (List.range d.segments).filter (fun n =>
    d.img.dir.length ≠ d.segments || segmentOf m n ≠ segmentOf d.img.committed n
      || (d.rekeyFinal && d.slotKey (slotOf (d.img.dir.getD n 0)) ≠ d.cip.imkGen))

/-- Whether a commit is made in a RESTORE, be it one that SAFEHOLD has paused (R292, R422). -/
def Dev.inRestore (d : Dev) : Bool :=
  d.ctl.mode = .restore || (d.ctl.mode = .save && (d.sav.from_ = .restore || (d.sav.from_ = .safehold && d.ctl.returnMode = .restore)))

/-- The checkpoint the keeper record of a commit of a cause holds for an engine (R292, R403). -/
def Dev.commitCheckpoint (d : Dev) (cause n : Nat) : Option Checkpoint :=
  if cause = 2 then (if d.inRestore then d.rst.ckpts.getD n none else (d.engine n).checkpoint)
  else some { st := .idle, cause := 0, run := none, runChunk := 0, stopChunk := 0, queue := [], nextId := (d.engine n).nextId, good := true }

/-- The capture a commit's keeper record holds for a channel. -/
def Dev.commitCapture (d : Dev) (c : Nat) : List Word :=
  match d.rst.captures.getD c [] with
  | [] => (d.chan c).keeperCapture
  | k => k

/-- The next slot for map segments: the first erased slot of a target in order (log entry 19). -/
def Dev.metaSlot (d : Dev) : Option Word := d.targets.findSome? (fun t => d.erasedOn t)

/-- Start programming the pages of a commit's map, four to a slot: the slots in order. The first argument bounds their number. -/
def Dev.mapPrograms : Nat → Dev → List FPage → List Word → Dev × List Word
  | 0, d, _, acc => (d, acc)
  | n + 1, d, pages, acc =>
    match pages, d.metaSlot with
    | _ :: _, some a => Dev.mapPrograms n (d.startOp (.mapSlot a (pages.take 4))) (pages.drop 4) (acc ++ [a])
    | _, _ => (d, acc)

/-- Page `i` of a run of slots. -/
def pageIn (slots : List Word) (i : Nat) : Word := (slots.getD (i / 4) 0) + BitVec.ofNat 32 (i % 4)

/-- Phase 1 of a commit: the map and keeper pages, each with the next copy generation (R403 step 2, R404); a discard has none. -/
def Dev.commitMapPhase (d : Dev) (cause : Nat) : Dev :=
  let m := d.commitMap
  if cause = 3 then
    { d with img := { d.img with commit := some { cause := 3, phase := 1, map := [], dir := [], keeperPage := 0, ckpts := [], caps := [], passed := none } } }
  else
    let segs := d.segmentsToWrite m
    let first := d.img.copyGen + 1
    let pages := segs.zipIdx.map (fun p => segmentPage m d.dcfg.granules.toNat p.1 (first + p.2)) ++ [keeperRecordPage (first + segs.length)]
    let (d1, slots) := Dev.mapPrograms pages.length d pages []
    let dir := (List.range d.segments).map (fun n => match segs.idxOf? n with | some i => pageIn slots i | none => d.img.dir.getD n 0)
    { d1 with img := { d1.img with
        copyGen := d1.img.copyGen + pages.length, changed := false
        commit := some { cause := cause, phase := 1, map := m, dir := dir, keeperPage := pageIn slots segs.length
                         ckpts := (List.range 4).map (d.commitCheckpoint cause), caps := (List.range 4).map d.commitCapture, passed := none } } }

/-- SAVE_PHASE at the start of a phase of the SAVE in progress. -/
def Dev.savePhase (d : Dev) (p : BitVec 3) : Dev :=
  ({ d with sav := { d.sav with phase := p } }).emit 0x0114 (packBytes [(1, p.toNat), (4, if p = 3 then d.sav.setSize else d.sav.finished)])

/-- COMMIT_CAUSE of a header (Table 5.12). -/
def Dev.commitCauseOf (d : Dev) (cause : Nat) : BitVec 3 := if cause = 2 then d.ctl.lastTrigger else 0

/-- The header of the commit in progress. -/
def Dev.commitHeader (d : Dev) (c : Commit) : Header :=
  d.headerFor (if c.cause = 3 then 2 else 0) (if c.cause = 2 then d.sav.markerGen else d.img.generation + 1) (d.commitCauseOf c.cause)
    c.map c.keeperPage c.dir

/-- KEY_NO_ESCROW, once per STARTUP, at a commit whose header could neither be wrapped under an escrow key nor copy the previous
committed header's wrap, the key generations having changed since (R444). -/
def Dev.noEscrow (d : Dev) (previous : Option Header) (h : Header) : Dev :=
  if h.escrowCheck = 0 && !(previous.any fun p => p.keyGen = h.keyGen && p.oldKeyGen = h.oldKeyGen) && !d.cip.noEscrowSent then
    ({ d with cip := { d.cip with noEscrowSent := true } }).emit 0x0D01 h.keyGen.toNat
  else d

/-- The end of an image re-key at its final commit (R451). -/
def Dev.rekeyEnd (d : Dev) : Dev :=
  if d.rekeyFinal then
    ({ d with cip := { d.cip with
      imkOld := d.cip.imk, oldGen := d.cip.imkGen, rekeyActive := d.cip.rekeyActive &&& 0xFE, goat := none
      goatQueue := d.cip.goatQueue.filter (· ≠ 0), imageBoundary := 0 } }).emit 0x0D03 0
  else d

/-- The image fields a commit loads from its header (R422, R425). -/
def Dev.commitFields (d : Dev) (c : Commit) (h : Header) : Img :=
  let i := d.img
  if c.cause = 3 then
    { i with state := 4, flags := 0, generation := h.generation, escrowCheck := h.escrowCheck, granules := 0, unsaved := 0, tainted := 0
             rekeyBoundary := 0, commitCause := 0, dir := [] }
  else
    { i with state := 1, generation := h.generation, granules := h.granules, unsaved := h.unsaved, tainted := h.tainted
             rekeyBoundary := h.rekeyBoundary, commitCause := h.commitCause, escrowCheck := h.escrowCheck, dir := c.dir
             flags := h.flags ||| (if d.inRestore then i.flags &&& 4 else 4) }

/-- The commit: the primary header has passed (R403 step 3). -/
def Dev.commitPoint (d : Dev) (c : Commit) (h : Header) : Dev :=
  let i := d.commitFields c h
  let d1 := { d with img := { i with
    commits := i.commits + 1, candidate := some h, committed := c.map, seqReserve := h.seqReserve
    wroteHeader := true, lastCommitMs := d.ctl.uptimeMs, keeperCkpt := c.ckpts, keeperCap := c.caps
    flush := if c.cause = 1 || c.cause = 2 then none else i.flush, commit := some { c with phase := 3 } } }
  let d2 := d1.emit 0x0C01 (h.generation.toNat % 2 ^ 22 * 2 ^ 26 + c.cause * 2 ^ 23 + min h.unsaved.toNat (2 ^ 23 - 1))
  (d2.noEscrow d.img.candidate h).rekeyEnd

/-- The commit is over: a record set that is due follows; SAVE goes on to its records (R399, R552, R553). With no ring target left to
hold them SAVE leaves them out. -/
def Dev.commitOver (d : Dev) (c : Commit) : Dev :=
  let d1 := { d with img := { d.img with commit := none } }
  if c.cause = 2 then
    (if !d1.saving then d1
     else
      let d2 := (d1.savePhase 6).startRecords
      if d2.recordsRunning then d2 else d2.savePhase7)
  else if d1.img.recordDue && d1.ctl.mode ≠ .save then d1.startRecords
  else d1

/-- The header of a commit has passed on the first ring: the commit takes place, in SAVE with the decision of R42 and the end of a
calibration; the secondary ring follows, or the commit is over where there is none. -/
def Dev.commitMade (d : Dev) (c : Commit) (h : Header) : Dev :=
  let d1 := d.commitPoint c h
  let d2 := if d.ctl.mode = .save && c.cause = 2 then
      ({ d1 with sav := { d1.sav with committed := true, resume := some d.canResume } }).calEnd else d1
  if d.mainRing && !d.ringLost false then d2.startHeader false (.header false h) else d2.commitOver c

/-- A commit whose header passed in SAFEHOLD takes place once SAFEHOLD is left (R406). -/
def Dev.commitPassed (d : Dev) : Dev :=
  match d.img.commit with
  | some c =>
    (match c.passed with
     | some h => if c.phase = 4 && !d.sav.abandoned then d.commitMade c h else d
     | none => d)
  | none => d

/-- A commit goes on as far as it can: from waiting for programs to its map, from its map to its first header. -/
def Dev.commitStep (d : Dev) : Dev :=
  match d.img.commit with
  | none => d
  | some c =>
    if d.ctl.mode = .safehold || d.sav.abandoned then d
    else if c.phase = 0 then
      (if d.programming then d
       else if !d.img.wroteHeader && c.cause ≠ 3 then d.reserve
       else d.commitMapPhase c.cause)
    else if c.phase = 1 && d.mapSlots.isEmpty then
      let d1 := if c.cause = 2 then d.savePhase 5 else d
      let d2 := { d1 with img := { d1.img with commit := some { c with phase := 2 } } }
      d2.startHeader d2.mainRing (.header d2.mainRing (d2.commitHeader c))
    else d

/-- Begin the oldest commit asked for, when none is in progress. -/
def Dev.commitNext (d : Dev) : Dev :=
  match d.img.commit, d.img.commitAsked with
  | none, cause :: t =>
    if cause ≠ 2 && !d.mayCommit cause then d
    else
      ({ d with img := { d.img with
        commitAsked := t
        commit := some { cause := cause, phase := 0, map := [], dir := [], keeperPage := 0, ckpts := [], caps := [], passed := none } } }).commitStep.commitStep
  | _, _ => d.commitStep.commitStep

/-- Ask for a commit. -/
def Dev.askCommit (d : Dev) (cause : Nat) : Dev :=
  if d.img.commitAsked.contains cause then d.commitNext
  else ({ d with img := { d.img with commitAsked := d.img.commitAsked ++ [cause] } }).commitNext

/-! ### SAVE's phases (R540 to R554) -/

/-- The save-open marker, to both rings (R405, R543), once no earlier commit runs (Table 15.2). -/
def Dev.startMarker (d : Dev) : Dev :=
  let gen := d.img.generation + 1
  let h := d.headerFor 1 gen 0 [] 0 []
  (({ d with sav := { d.sav with markerGen := gen } }).startHeader true (.marker true h)).startHeader false (.marker false h)

/-- The marker of this SAVE, once the ring whose program counts first holds it. -/
def Dev.markerHeld (d : Dev) : Option Header :=
  if d.ringLost d.mainRing || d.img.ops.any (fun o => match o.2 with | .marker primary _ => primary = d.mainRing | _ => false) then none
  else ((d.ring d.mainRing).pages.reverse.map (·.2)).find? (fun h => h.hkind = 1 && h.generation = d.sav.markerGen)

/-- The marker has passed: phase 3 begins (R543). -/
def Dev.markerStep (d : Dev) : Dev :=
  match d.markerHeld with
  | some h =>
    (({ d with img := { d.img with wroteHeader := true, seqReserve := h.seqReserve } }).programAll).savePhase 3
  | none => d

/-- The next granule SAVE takes: one that a lost target left, then in save order (R545, R661). -/
def Dev.nextSave (d : Dev) : Option Nat :=
  let free := d.dirtyList.filter (fun g => !(d.img.copies.any (fun c => c.granule = g)))
  match d.sav.again.find? free.contains with
  | some g => some g
  | none => [0, 1, 2].findSome? (fun cls => free.find? (fun g => classIn d.sav.classes g = cls))

/-- SAVE takes granules while a target can accept one, until a limit is reached (R546, R550). -/
def Dev.saveFill : Nat → Dev → Dev
  | 0, d => d
  | n + 1, d =>
    if d.sav.short.isSome then d
    else match d.nextSave with
    | none => d
    | some g =>
      if d.reserveReached then { d with sav := { d.sav with short := some 0 } }
      else if d.sav.bound ≤ d.sav.taken || d.flashBound = 0 then { d with sav := { d.sav with short := some 1 } }
      else match d.nextSlot with
      | some a => Dev.saveFill n (({ d with sav := { d.sav with taken := d.sav.taken + 1, again := d.sav.again.filter (· ≠ g) } }).newCopy g 1 a)
      | none => d

/-- The end of phase 3: SAVE_SHORT after a short ending, then phase 4 (R550 to R552). -/
def Dev.savePhase3End (d : Dev) : Dev :=
  if d.img.copies.isEmpty && (d.sav.short.isSome || d.nextSave.isNone) then
    let d1 := match d.sav.short with
      | some r => d.emitAt 0x0113 0x0115 (packBytes [(1, r), (4, d.dirtyTotal)])
      | none => d
    ((d1.savePhase 4).commitMapPhase 2).commitStep
  else d

/-- SAVE goes on as far as it can: the marker, the granules, the end of phase 3. -/
def Dev.saveStep (d : Dev) : Dev :=
  if !d.saving then d
  else
    let d1 := if d.sav.phase ≠ 2 then d
      else if d.sav.markerGen ≠ 0 then d.markerStep
      else if d.img.commit.isNone && d.img.commitAsked.isEmpty then d.startMarker
      else d
    if d1.sav.phase = 3 then (Dev.saveFill 64 d1).savePhase3End else d1

/-! ### Trickle, flush and restore (R409 to R413, R426, R569 to R575) -/

/-- Whether a granule touches a frozen or offline channel (Table 10.1). -/
def Dev.granuleBlocked (d : Dev) (g : Nat) : Bool :=
  d.mc.any (fun m => m.used && (m.frozen || m.offline)) && (d.granuleChannels g).any (fun c => (d.chan c).frozen || (d.chan c).offline)

/-- A granule may be copied now. -/
def Dev.copyable (d : Dev) (g : Nat) : Bool :=
  (d.entry g).dirty && !d.granuleBlocked g && !(d.img.copies.any (fun c => c.granule = g))

/-- Trickle starts the copies of its batch while targets are free; each takes a token and increments TRICKLED (R412). While the day's
allowance is used no token is drawn (R415). -/
def Dev.trickleFill : Nat → Dev → Dev
  | 0, d => d
  | n + 1, d =>
    if d.img.throttled then d
    else match d.img.batch with
    | [] => d
    | g :: t =>
      if !d.copyable g then Dev.trickleFill n { d with img := { d.img with batch := t } }
      else match d.nextSlot with
      | some a => Dev.trickleFill n (({ d with img := { d.img with
          batch := t, tokens := d.img.tokens - 86400000, trickled := d.img.trickled + 1 } }).newCopy g 0 a)
      | none => d

/-- The trickle instance finishes when every copy of its batch has (R412); WEAR_LIMIT stops it (R416). -/
def Dev.trickleStep (d : Dev) : Dev :=
  let d1 := if d.img.wearLimited then { d with img := { d.img with batch := [] } } else Dev.trickleFill 4096 d
  if d1.img.batch.isEmpty && !d1.img.copies.any (fun c => c.purpose = 0) then { d1 with img := { d1.img with trickleRun := false } } else d1

/-- CHECKPOINT_FLUSH copies its granules: a granule that another copy holds waits for its end, one that is blocked or has been written
meanwhile is left (R406, R426). -/
def Dev.flushFill : List Nat → Dev → Dev
  | [], d => d
  | g :: t, d =>
    let leave := fun (d : Dev) => { d with img := { d.img with flush := d.img.flush.map (fun l => l.filter (· ≠ g)) } }
    if d.img.copies.any (fun c => c.granule = g && c.purpose ≠ 5) then Dev.flushFill t d
    else if !(d.entry g).dirty || d.granuleBlocked g then Dev.flushFill t (leave d)
    else match d.nextSlot with
    | some a => Dev.flushFill t ((leave d).newCopy g 2 a)
    | none => d

/-- A flush goes on, and asks for its commit when every granule of it has been written or skipped. -/
def Dev.flushStep (d : Dev) : Dev :=
  let d1 := Dev.flushFill (d.img.flush.getD []) d
  if d1.img.flush = some [] && !d1.img.copies.any (fun c => c.purpose = 2)
      && !(match d1.img.commit with | some c => c.cause = 1 | none => false) then d1.askCommit 1 else d1

/-- Restores under way on a target. -/
def Dev.restoresOn (d : Dev) (t : Nat × Nat) : Nat :=
  (d.img.ops.filter (fun o => match o.2 with | .restoreRead _ k => (k / 4, k % 4) = t | _ => false)).length
    + (d.rst.flight.filter (fun r => targetOf (d.entry r.granule).slot = t)).length

/-- A granule is being restored. -/
def Dev.restoreFlying (d : Dev) (g : Nat) : Bool :=
  d.rst.flight.any (fun r => r.granule = g) || d.img.ops.any (fun o => match o.2 with | .restoreRead k _ => k = g | _ => false)

/-- The next granule to restore: demand granules in order, then classes and indices, on a target with room (R569, R570, R575). -/
def Dev.nextRestore (d : Dev) : Option Nat :=
  let can := fun g => !d.restoreFlying g && d.restoresOn (targetOf (d.entry g).slot) < 2
  match (d.rst.demand.filter d.rst.unrestored.contains).find? can with
  | some g => some g
  | none => [0, 1, 2].findSome? (fun cls => d.rst.unrestored.find? (fun g => classIn d.rst.classes g = cls && can g))

/-- The plaintext of a slot; bytes of a slot the model's flash does not hold are open values. -/
def Dev.slotData (d : Dev) (a : Word) : List Host.Cell :=
  match d.img.slots.find? (fun s => s.addr = a) with
  | some s => s.data
  | none => (List.range 65536).map (fun i => (i, Config.storedByte a.toNat i))

/-- FLASH_UNCORRECTABLE for each page that holds a bad sector (R394, R578). -/
def Dev.badPages (d : Dev) (slot : Word) (kind : Nat) (bad : List Nat) : Dev :=
  ((List.range 4).filter (fun p => bad.any (fun s => s / 4 = p))).foldl
    (fun d p => d.emit 0x0C04 (packBytes [(4, (slot + BitVec.ofNat 32 p).toNat), (1, kind)])) d

/-- The burst writes of a restored granule. -/
def restoreJob (g : Nat) (data : List Host.Cell) : Job :=
  { reads := [], writes := granuleBursts g, queued := 0, buffer := data, stopped := false, tainted := false }

/-- The data of a restored granule is at hand, but for the sectors that could not be read (R455, R570, R578): a tainted copy
and an unreadable sector poison the granule; with VERIFY_FIRST the writes wait for the verdicts. -/
def Dev.restoreData (d : Dev) (g : Nat) (bad : List Nat) (altered : List SectorRead) : Dev :=
  let e := d.entry g
  let d1 := d.badPages e.slot 1 bad
  let d2 := if e.taint || !bad.isEmpty then d1.poison g else d1
  let data := (d.readPlain e.slot altered (d.slotData e.slot)).filter (fun c => c.2 ≠ 0 && !bad.contains (c.1 / 4096))
  let r : RGran :=
    { granule := g, job := if d.cip.verifyFirst then none else some (restoreJob g data), data := data, tainted := e.taint, begun := false
      unjudged := (List.range 16).filter (fun s => !bad.contains s), failed := bad, forged := d.forgedIn e.slot altered }
  let r1 := if d.cip.verifyFirst && r.unjudged.isEmpty then { r with job := some (restoreJob g data) } else r
  { d2 with rst := { d2.rst with flight := d2.rst.flight ++ [r1] } }

/-- Restore reads start while targets have room; a slot on a lost target cannot be read at all (R578, R661). -/
def Dev.restoreFill : Nat → Dev → Dev
  | 0, d => d
  | n + 1, d =>
    match d.nextRestore with
    | some g =>
      let t := targetOf (d.entry g).slot
      Dev.restoreFill n (if d.img.lost.getLsbD (4 * t.1 + t.2) then d.restoreData g (List.range 16) []
        else d.startOp (.restoreRead g (4 * t.1 + t.2)))
    | none => d

/-- Copies whose reads met a freeze are abandoned. -/
def Dev.sweepStopped (d : Dev) : Dev :=
  (d.img.copies.filter (fun c => match c.job with | some j => j.stopped && j.queued = 0 | none => false)).foldl
    (fun (d : Dev) c => if c.purpose = 6 then d.endCopy c.id else d.dropCopy c) d

/-- The image re-key has walked every granule: its final commit is asked for, once no commit whose map is older runs (R451). -/
def Dev.goatFinish (d : Dev) : Dev :=
  match d.cip.goat with
  | some g =>
    if g.target = 0 && !g.finishing && d.dcfg.granules.toNat ≤ d.cip.imageBoundary.toNat
        && (match d.img.commit with | some c => c.phase = 0 | none => true) then
      ({ d with cip := { d.cip with goat := some { g with finishing := true } } }).askCommit 4
    else d
  | none => d

/-! ### Relocation and erases (R417, R420) -/

/-- Trickle has dirty work: copies of its batch are to be made, or are being made. -/
def Dev.trickleWork (d : Dev) : Bool := d.img.trickleRun && (!d.img.batch.isEmpty || d.img.copies.any (fun c => c.purpose = 0))

/-- A relocation or a Goat copy may take its share of program time: while trickle has dirty work, one program to three of trickle's (25 %;
log entry 71). -/
def Dev.shareOpen (d : Dev) : Bool := !d.trickleWork || 3 ≤ d.img.shareCredit

/-- The share is taken. -/
def Dev.shareTaken (d : Dev) : Dev := if d.trickleWork then { d with img := { d.img with shareCredit := 0 } } else d

/-- GC_ACTIVE: a relocation runs (R417). -/
def Dev.gcActive (d : Dev) : Bool :=
  d.img.copies.any (fun c => c.purpose = 5) || d.img.relocs.any (·.read)
    || d.img.ops.any (fun o => match o.2 with | .relocRead _ => true | _ => false)

/-- Garbage collection may run (R417). -/
def Dev.mayCollect (d : Dev) : Bool := d.canWrite && d.ctl.mode = .operate && !d.awaits && !d.shutting

/-- Start copying a slot that has been read to another, bit for bit (R417). -/
def Dev.moveSlot (d : Dev) (slot a : Word) : Dev :=
  let (index, gen, taint) := match d.img.slots.find? (fun s => s.addr = slot) with
    | some s => (s.index, s.copyGen, s.taint)
    | none => (match d.img.gmap.find? (fun p => p.2.slot = slot) with | some p => (p.1, p.2.genLo.toNat, p.2.taint) | none => (0, 0, false))
  let c : Copy :=
    { id := d.img.nextOp, granule := index, slot := a, copyGen := max 1 gen, taint := taint, purpose := 5, job := none, took := true
      data := [], fromSlot := slot, keyGen := 0 }
  { d.shareTaken with img := { d.shareTaken.img with
      copies := d.img.copies ++ [c], nextOp := d.img.nextOp + 1, relocs := d.img.relocs.filter (fun r => r.slot ≠ slot) } }

/-- Relocation goes on, a slot at a time: those of garbage collection where it may run, the others in SAFEHOLD as well (R417, R420). A
slot that is no longer live, or lies on a lost target, is left. -/
def Dev.relocStep (d0 : Dev) : Dev :=
  let d := { d0 with img := { d0.img with relocs := d0.img.relocs.filter (fun r => d0.live r.slot && !d0.onLost r.slot) } }
  if d.img.copies.any (fun c => c.purpose = 5) || d.img.ops.any (fun o => match o.2 with | .relocRead _ => true | _ => false) then d
  else match d.img.relocs.find? (fun r => !r.gc || d.mayCollect) with
  | none => d
  | some r =>
    if !r.read then d.startOp (.relocRead r.slot)
    else if !d.shareOpen then d
    else match d.nextSlot with
    | some a => d.moveSlot r.slot a
    | none => d

/-- Block groups that hold programmed slots and no live one are erased, where garbage collection may run (R417). -/
def Dev.eraseStep (d : Dev) : Dev :=
  if !d.mayCollect then d
  else
    let groups := ((d.img.slots.map (fun s => groupOf d.img.geom s.addr)).eraseDups).filter (fun g =>
      !d.img.erases.contains g && !d.img.retired.contains g && !d.onLost g && (d.liveIn g).isEmpty)
    { d with img := { d.img with erases := d.img.erases ++ groups } }

/-- What Mule does in every cycle: the copies, commits and restores that its mode lets it start. -/
def Dev.muleCycle (d : Dev) : Dev :=
  let d := d.sweepStopped
  match d.ctl.mode with
  | .save => if d.saving then d.commitNext.saveStep else d
  | .restore => if d.shutting || d.rst.unrestored.isEmpty then d else Dev.restoreFill 64 d
  | .operate =>
    if d.shutting || !d.canWrite then d
    else
      let d := d.goatFinish
      let d1 := if d.img.trickleRun then d.trickleStep else d
      let d2 := if d1.img.flush.isSome then d1.flushStep else d1
      let d3 := d2.relocStep.eraseStep
      if d3.img.commitAsked.isEmpty && d3.img.commit.isNone then d3 else d3.commitNext
  | .safehold => if d.shutting || !d.canWrite then d else d.relocStep
  | _ => d

end Sys2Proof.Machine
end

