-- ==== Sys2Proof/Machine/Cycle.lean ====
section
/-! DEFINITION. What every data-plane cycle does whatever happened in it, and the frame of a host transaction: snapshot, checks,
reply, commit. -/
namespace Sys2Proof.Machine
open Sys2Proof

/-! ### Every cycle -/

/-- The events' parameter of ADMIT_HOLD (Table 13.8). -/
def holdParam (on : Bool) (dirty limit : Nat) : Nat :=
  bit on 47 + min dirty 0x7FFFFF * 2 ^ 23 + min limit 0x7FFFFF

/-- GUARD's comparison (R501): begins or ends a hold. -/
def Dev.guardCycle (d : Dev) : Dev :=
  let n := d.dirtyMust + d.dirtyShould
  let lim := d.adm.limit.toNat
  let guard := d.adm.mode = 1 && d.ctl.saveArmed && (d.ctl.mode = .operate || d.ctl.mode = .restore)
  if guard && !d.adm.holding && lim ≤ n then
    ({ d with adm := { d.adm with holding := true, holdCount := satInc d.adm.holdCount } }).emit 0x0E20 (holdParam true n lim)
  else if d.adm.holding && (!guard || n + 64 ≤ lim) then
    ({ d with adm := { d.adm with holding := false } }).emit 0x0E20 (holdParam false n lim)
  else d

/-- CAPTURE's over state (R504). -/
def Dev.captureCycle (d : Dev) : Dev :=
  let n := d.dirtyTotal
  let lim := d.adm.limit.toNat
  if d.adm.mode ≠ 2 then { d with adm := { d.adm with overLim := false } }
  else if !d.adm.overLim && lim ≤ n then ({ d with adm := { d.adm with overLim := true } }).emit 0x0E21 (packBytes [(1, 1), (4, n)])
  else if d.adm.overLim && n + 64 ≤ lim then ({ d with adm := { d.adm with overLim := false } }).emit 0x0E21 (packBytes [(1, 0), (4, n)])
  else d

/-- EPOCH_DRAINED, once for each epoch a commit brings into force (R267). -/
def Dev.drainCycle (d : Dev) : Dev :=
  if d.reg.reported ≠ d.reg.epoch && d.oldestLive = d.reg.epoch then
    ({ d with reg := { d.reg with reported := d.reg.epoch } }).emit 0x0401 d.reg.epoch.toNat
  else d

/-- The drive of HERD_SYNC (R510, R513, R518): released unjoined and in ARMED, held for t_hold, else low while not ready. -/
def Dev.driveCycle (d : Dev) : Dev :=
  let pull :=
    if !d.herd.joined then false
    else if d.herd.st = 7 then false
    else if d.herd.grabDue then d.herd.pulling
    else if d.herd.holdRunning then true
    else !d.herdReady
  { d with herd := { d.herd with pulling := pull } }

/-- The completions a port may queue: of each stream not yet waiting, those decided before any that is not (R238). -/
def ripe (waiting : List (BitVec 3)) : List FReq → List FReq
  | [] => []
  | r :: t =>
    if waiting.contains r.req.stream then ripe waiting t
    else if r.code.isSome then r :: ripe waiting t
    else ripe (r.req.stream :: waiting) t

/-- A port's decided requests leave for its completion queue in source order (R229, R238); those whose completion is to be
discarded leave once decided (R40). -/
def fabSettle (f : Fab) : Fab :=
  let live := f.inflight.filter (fun r => !(r.drop && r.code.isSome))
  let out := ripe [] (live.filter (fun r => !r.drop))
  { f with
    inflight := live.filter (fun r => !(out.any (fun k => k.id = r.id)))
    cq := f.cq ++ out.map (fun r => completionOf r.req (r.code.getD 0) r.data) }

/-- Both ports' completions. -/
def Dev.settle (d : Dev) : Dev := { d with fa := fabSettle d.fa, fb := fabSettle d.fb }

/-- What every cycle does after the happening of that cycle. -/
def Dev.everyCycle (d : Dev) : Dev := d.settle.restoreEnd.muleCycle.guardCycle.captureCycle.drainCycle.driveCycle.anchorTasks

/-- The data plane runs: powered, out of CONFIG. -/
def Dev.alive (d : Dev) : Bool := d.ctl.mode ≠ .unpowered && !(d.ctl.mode = .startup && d.ctl.step = .config)

/-- The management port answers: its supply is up and the device is out of CONFIG (R18, R642). Domain code 6 is VDD_IO. -/
def Dev.portLive (d : Dev) : Bool := d.alive && !d.ctl.domainsDown.getLsbD 6

/-- The state after a cycle that leaves the device `e`. A transaction that is open across the cycle may have its snapshot or its
reply before it; none is open across a time in which the port does not answer (R18, R114). -/
def State.after (s : State) (e : Dev) : State := { s with d := e, past := if s.d.portLive && e.portLive then s.d :: s.past else [] }

/-- A happening of a running data plane, in a cycle of its own. -/
def happen (s : State) (f : Dev → Dev) : State :=
  if s.d.alive then s.after (endCycle s.d ((f s.d).everyCycle)) else s

/-- A happening that reaches the device in every power state. -/
def happenAny (s : State) (f : Dev → Dev) : State :=
  let b := f s.d
  s.after (endCycle s.d (if b.alive then b.everyCycle else b))

/-- No transaction is open any more: RESET_N or the loss of VDD_IO has abandoned it (R114). -/
def State.cut (s : State) : State := { s with past := [] }

/-! ### Transactions (Table 4.9) -/

/-- Status codes (Table 5.1). -/
def stOk : Byte := 0x00
def stPending : Byte := 0x01
def stBusy : Byte := 0x02
def stBadCrc : Byte := 0x10
def stBadOpcode : Byte := 0x11
def stBadLength : Byte := 0x12
def stBadParam : Byte := 0x13
def stDeniedMode : Byte := 0x20
def stDeniedLock : Byte := 0x21
def stDeniedState : Byte := 0x22
def stDeniedAuth : Byte := 0x23
def stFaultInternal : Byte := 0x30
def stFaultMedia : Byte := 0x31
def stFaultEnergy : Byte := 0x32

/-- Mode sets (Table 5.2). -/
def inO (d : Dev) : Bool := d.ctl.mode = .operate
def inR (d : Dev) : Bool := d.ctl.mode = .restore
def inH (d : Dev) : Bool := d.ctl.mode = .safehold
def inW (d : Dev) : Bool := d.ctl.mode = .startup && d.ctl.step = .waitRails
def inHd (d : Dev) : Bool := d.ctl.mode = .startup && d.ctl.step = .halted
def inAll (d : Dev) : Bool := d.alive
/-- DESIGN CHOICE (log entry 64): while a sequenced shutdown runs from OPERATE or RESTORE, MODE keeps its value, and mode commands and a
herd CUT are taken as that mode takes them (R21, R25). -/
def inOR (d : Dev) : Bool := inO d || inR d
def inORH (d : Dev) : Bool := inO d || inR d || inH d
def inWO (d : Dev) : Bool := inW d || inO d
def inWOR (d : Dev) : Bool := inW d || inO d || inR d
def inWHd (d : Dev) : Bool := inW d || inHd d

/-- What Table 5.3 and the owning chapter give one command. -/
structure Cmd where
  opcode : Byte
  /-- Parameter lengths accepted (check 4). -/
  len : Nat → Bool
  /-- Mode set (check 5). -/
  modes : Dev → Bool
  /-- Refused by LOCK (check 6). -/
  lock : Dev → Bool
  /-- Parameters valid (check 7). -/
  valid : Dev → Bool
  /-- Class Q: its tag must be free (R105). -/
  query : Bool
  /-- Command-specific conditions (check 9): the status of the first that fails. -/
  cond : Dev → Option Byte
  /-- Status and payload of an accepted command, from the snapshot and the device at the edge that fixes the reply (R100). -/
  reply : Dev → Dev → Byte × List Word
  /-- One of the mode-changing commands of R25. -/
  modeChange : Bool
  /-- RC fields the commit reduces: applied to the live device without counting in STATE_SEQ (R182). -/
  clear : Dev → Dev
  /-- The effect at the commit edge, from the snapshot and the live device. -/
  effect : Dev → Dev → Dev

/-- A command of class I with no effect. -/
def Cmd.plain (opcode : Byte) (n : Nat) (reply : Dev → List Word) : Cmd :=
  { opcode := opcode, len := fun k => k = n, modes := inAll, lock := fun _ => false, valid := fun _ => true, query := false
    cond := fun _ => none, reply := fun sd _ => (stOk, reply sd), modeChange := false, clear := fun d => d, effect := fun _ d => d }

/-- Whether a held slot has a tag. -/
def holds (d : Dev) (tag : BitVec 6) : Bool := d.eu.held.any (fun h => h.tag = tag)

/-- The byte the reply echoes (R96). -/
def tagByteOf (x : Xact) : Byte := (x.tag.setWidth 8 <<< 2) ||| (if x.seq.isSome then 2 else 0) ||| (if x.rsv then 1 else 0)

/-- The check that fails first, with its status, against the snapshot (Table 4.9). -/
def Cmd.check (c : Cmd) (x : Xact) (sd : Dev) : Option Byte :=
  if 252 < x.plen.toNat then some stBadLength
  else if !x.crcOk then some stBadCrc
  else if x.seq.isSome && x.plen.toNat < 4 then some stBadLength
  else if !c.len (if x.seq.isSome then x.plen.toNat - 4 else x.plen.toNat) then some stBadLength
  else if !c.modes sd then some stDeniedMode
  else if c.lock sd then some stDeniedLock
  else if x.rsv || !c.valid sd || (c.query && holds sd x.tag) then some stBadParam
  else if x.seq.isSome && x.seq ≠ some sd.eu.stateSeq then some stDeniedState
  else c.cond sd

/-- The payload of an error reply (R97). -/
def errorPayload (st : Byte) (sd : Dev) : List Word := if st = stDeniedState then [sd.eu.stateSeq] else []

/-- Whether the expected STATE_SEQ is what failed (check 8). -/
def Cmd.staleAtReply (c : Cmd) (x : Xact) (sd : Dev) : Bool :=
  c.check x sd = some stDeniedState && (x.seq.isSome && x.seq ≠ some sd.eu.stateSeq)

/-- Whether R25 voids a mode-changing command: mode, HOST_PATH or SAVE_ARMED has changed since the snapshot. -/
def modeMoved (sd d : Dev) : Bool :=
  sd.ctl.mode ≠ d.ctl.mode || sd.ctl.hostPath ≠ d.ctl.hostPath || sd.ctl.saveArmed ≠ d.ctl.saveArmed

/-- Whether the expected STATE_SEQ is stale at the commit of a command whose reply carries no error (R119): `seq` is the live
STATE_SEQ at the commit edge. -/
def staleAtCommit (x : Xact) (st : Byte) (seq : Word) : Bool := st.toNat < 0x10 && (x.seq.isSome && x.seq ≠ some seq)

/-- The live device after the commit of an accepted command that replied `st` (R25, R119, R629). -/
def Cmd.commit (c : Cmd) (x : Xact) (st : Byte) (seq : Word) (sd d : Dev) : Dev :=
  if c.modeChange && modeMoved sd d then d.emit 0x0105 (packBytes [(1, c.opcode.toNat), (1, x.tag.toNat)])
  else if staleAtCommit x st seq then d.emit 0x0161 (packBytes [(1, c.opcode.toNat), (1, x.tag.toNat), (1, 1)])
  else c.effect sd d

/-- Whether an accepted command's RC reductions take place (its commit is not voided). -/
def Cmd.commits (c : Cmd) (x : Xact) (st : Byte) (seq : Word) (sd d : Dev) : Bool :=
  !(c.modeChange && modeMoved sd d) && !staleAtCommit x st seq

/-- Bytes of the request packet (Table 4.1); one whose PLEN exceeds 252 is taken to have no parameter bytes (R102). -/
def requestBytes (x : Xact) : Nat := 6 + (if 252 < x.plen.toNat then 0 else x.plen.toNat)

/-- The device with the reply of the transaction on EM_DO, after the request and the wait bytes that the snapshot gives (R93, R99). -/
def Dev.withReply (d : Dev) (x : Xact) (sd : Dev) (st : Byte) (payload : List Word) : Dev :=
  let r : Reply := { before := requestBytes x + sd.eu.waitBytes.toNat, tagByte := tagByteOf x, status := st, payload := payload }
  { d with eu := { d.eu with reply := some r } }

/-- The device as it stood `n` happenings ago, or at the end of the latest transaction if that is later (R115). -/
def State.ago (s : State) (n : Nat) : Dev := (s.d :: s.past).getD (min n s.past.length) s.d

/-- The snapshot of a transaction (R115; log entry 2). -/
def State.view (s : State) (x : Xact) : Dev := s.ago x.snapBack

/-- The device at the edge that fixes the reply (R100). -/
def State.atReply (s : State) (x : Xact) : Dev := s.ago (min x.replyBack x.snapBack)

/-- The device before the cycle of the latest happening, where the commit falls in that cycle (R627). -/
def State.shared (s : State) (x : Xact) : Option Dev := if x.sameCycle then s.past.head? else none

/-- The live STATE_SEQ at the commit edge: the one before the cycle of the commit (R119, R627). -/
def State.seqAt (s : State) (x : Xact) : Word := ((s.shared x).getD s.d).eu.stateSeq

/-- A transaction's last cycle has ended: the device it leaves is the oldest a later snapshot can hold (R115). -/
def State.done (s : State) (d : Dev) : State := { s with d := d, past := [] }

/-- The end of a transaction whose commit turned `a` into `b`. -/
def State.close (s : State) (x : Xact) (a b : Dev) : State := s.done (endCommit (s.shared x) a b)

/-- A transaction refused in its reply: nothing but the counters and events of the refusal (R112, R118). -/
def refuse (s : State) (x : Xact) (opcode : Byte) (st : Byte) (stale : Bool) (sd : Dev) : State :=
  let d := s.d.withReply x sd st (errorPayload st sd)
  let d1 := if st = stBadCrc then { d with eu := { d.eu with crcErrors := satInc d.eu.crcErrors } } else d
  let d2 := if stale then d1.emit 0x0161 (packBytes [(1, opcode.toNat), (1, x.tag.toNat), (1, 0)]) else d1
  s.close x s.d d2

/-- A host transaction, from its request to its settle byte. -/
def transact (s : State) (x : Xact) (c : Cmd) : State :=
  let sd := s.view x
  if !s.d.portLive then { s with d := { s.d with eu := { s.d.eu with reply := none } } }
  else
    match c.check x sd with
    | some st => refuse s x c.opcode st (c.staleAtReply x sd) sd
    | none =>
      let r := c.reply sd (s.atReply x)
      let base := if c.commits x r.1 (s.seqAt x) sd s.d then c.clear s.d else s.d
      s.close x base (c.commit x r.1 (s.seqAt x) sd (base.withReply x sd r.1 r.2))

/-- The work of a class A command, judged again in the data plane: with its mode set and conditions gone it has no effect and
its void event is queued (R139, R629). -/
def Cmd.act (ok : Dev → Bool) (void : Dev → Dev) (work : Dev → Dev) (d : Dev) : Dev :=
  if ok d then (work d).everyCycle else void d

/-- CMD_VOID of Table 18.2 row 6. -/
def cmdVoid (opcode : Byte) (x : Xact) (d : Dev) : Dev := d.emit 0x0106 (packBytes [(1, opcode.toNat), (1, x.tag.toNat)])
/-- MODE_CMD_VOID of row 1. -/
def modeVoid (opcode : Byte) (x : Xact) (d : Dev) : Dev := d.emit 0x0105 (packBytes [(1, opcode.toNat), (1, x.tag.toNat)])
/-- KEY_CMD_VOID of row 5. -/
def keyVoid (opcode : Byte) (x : Xact) (d : Dev) : Dev := d.emit 0x0D05 (packBytes [(1, opcode.toNat), (1, x.tag.toNat)])

/-! ### Held results (R104 to R110) -/

/-- The devices from the commit of a transaction back to its snapshot. -/
def State.since (s : State) (x : Xact) : List Dev := (s.d :: s.past).take (x.snapBack + 1)

/-- Whether a mode was entered in the course of a run of devices, newest first. -/
def entered (m : Mode) : List Dev → Bool
  | b :: a :: t => (b.ctl.mode = m && a.ctl.mode ≠ m) || entered m (a :: t)
  | _ => false

/-- The device in the cycle in which class Q work finished, when it did before the reply (R103, R630): work that an entry to SAVE
stopped (R109), or one to STARTUP discarded (R110), has not finished. The work starts at the snapshot (log entry 2). -/
def State.finished (s : State) (x : Xact) (done : Option Nat) : Option Dev :=
  match done with
  | none => none
  | some k =>
    let l := (s.since x).drop k
    if x.replyBack ≤ k && k ≤ x.snapBack && !entered .save l && !entered .startup l then some (s.ago k) else none

/-- The status and payload of a class Q reply: complete, busy, or denied because all 8 slots are occupied. R104 does not say of
which moment; the live slots at the reply are taken, as for FETCH (R110). DEDUCED, log entry 53. -/
def queryReply (sd rd : Dev) (result : Option (Byte × List Word)) : Byte × List Word :=
  match result with
  | some r => r
  | none => if rd.eu.held.length < 8 then (stBusy, []) else (stDeniedState, [sd.eu.stateSeq])

/-- The commit of a class Q command that replied BUSY takes a slot (R106): none when an entry to STARTUP has discarded the work
(R110), and one that completes at once DENIED_MODE when an entry to SAVE has stopped it (R109). -/
def takeSlot (s : State) (x : Xact) (done : Option Nat) (work : QWork) (d : Dev) : Dev :=
  if (s.finished x done).isSome || 8 ≤ (s.atReply x).eu.held.length || entered .startup (s.since x) then d
  else if entered .save (s.since x) then
    ({ d with eu := { d.eu with held := d.eu.held ++ [({ tag := x.tag, work := work, result := some (stDeniedMode, []) } : Held)] } }).emit 0x0162
      (packBytes [(1, x.tag.toNat), (1, stDeniedMode.toNat)])
  else { d with eu := { d.eu with held := d.eu.held ++ [({ tag := x.tag, work := work, result := none } : Held)] } }

end Sys2Proof.Machine
end

