-- ==== Sys2Proof/Machine/Ledger.lean ====
section
/-! DEFINITION. The Ledger map of chapter 6: the value of every word, the fields a write may change, which values are invalid,
the RC reductions, and the effect of a write. -/
namespace Sys2Proof.Machine
open Sys2Proof

/-- Codes of LINK_STATE (Table 7.2). -/
def LinkState.code : LinkState → Nat
  | .disabled => 0
  | .detect => 1
  | .poll => 2
  | .config => 3
  | .eq => 4
  | .active => 5
  | .retrain => 6

/-- Codes of CE_STATE (Table 8.5). -/
def CeState.code : CeState → Nat
  | .idle => 0
  | .running => 1
  | .stopped => 2
  | .resumable => 3
  | .cancelling => 4

/-- Codes of RAIL_STATE (Table 13.2). -/
def RailState.code : RailState → Nat
  | .off => 0
  | .enabling => 1
  | .up => 2
  | .disabling => 3
  | .fault => 4
  | .excluded => 5
  | .bleeding => 6
  | .unused => 15

/-- Tags outstanding on a port (R222). -/
def fabTags (f : Fab) : Nat := f.rx.length + (f.inflight.filter (fun r => !r.drop)).length + f.cq.length

/-- LINK_UP: the link layer exchanges packets (Table 7.2). -/
def fabUp (f : Fab) : Bool := f.link = .active
/-- A rate and width are in use: RATE and WIDTH read 0 in every state but ACTIVE and RETRAIN (Table 6.5). -/
def fabRuns (f : Fab) : Bool := f.link = .active || f.link = .retrain

/-- A port block word (Table 6.5). -/
def fabWord (f : Fab) (o : Nat) : Word :=
  match o with
  | 0x00 => wd (f.link.code * 2 ^ 28 + (if fabRuns f then f.rate.toNat * 2 ^ 24 + f.width.toNat * 2 ^ 16 else 0) + bit (fabUp f) 0)
  | 0x01 => wd (bit f.enabled 16 + f.maxWidth.toNat * 2 ^ 8 + f.maxRate.toNat)
  | 0x04 => f.trainCount.setWidth 32
  | 0x05 => f.replays ++ f.naksSent
  | 0x06 => f.crcErrors ++ f.retrains
  | 0x08 => wd (fabTags f)
  | 0x09 => (f.txLimit - f.txConsumed) ++ (f.rxConsumed + 512 - f.rxLimit)
  | 0x10 => f.cplRegionFault ++ f.cplFrozen
  | 0x11 => f.cplPoisoned ++ f.cplUnmapped
  | 0x12 => f.cplNotAdmitted.setWidth 32
  | 0x18 => f.reads
  | 0x19 => f.writes
  | _ => 0

/-- A region block word (Table 6.6). -/
def regionWord (r : Region) (o : Nat) : Word :=
  match o with
  | 0 => wd (bit r.staged.isSome 31) ||| attrWord r.cur
  | 1 => r.cur.base.setWidth 32
  | 2 => r.cur.limit.setWidth 32
  | 3 => r.commitEpoch
  | 4 => match r.staged with | some a => attrWord a | none => 0
  | 5 => match r.staged with | some a => a.base.setWidth 32 | none => 0
  | 6 => match r.staged with | some a => a.limit.setWidth 32 | none => 0
  | _ => r.faults.setWidth 32

/-- STAGED_MASK: bit n set when region n is staged. -/
def Dev.stagedMask (d : Dev) : BitVec 64 :=
  BitVec.ofNat 64 (d.reg.regions.zipIdx.foldl (fun acc p => acc + bit p.1.staged.isSome p.2) 0)

/-- QUEUE_DEPTH: the descriptors an engine holds, counting the running one (Tables 6.7, 8.8; log entry 20). -/
def ceDepth (c : Ce) : Nat := c.queue.length + (if c.run.isSome then 1 else 0)

/-- A copy-engine block word (Table 6.7). -/
def ceWord (n : Nat) (c : Ce) (o : Nat) : Word :=
  match o with
  | 0 => wd (c.st.code * 2 ^ 28 + c.cause.toNat * 2 ^ 24 + ceDepth c * 2 ^ 16 + bit (2 ≤ n) 8)
  | 1 => c.runId.setWidth 32
  | 2 => c.runChunk.setWidth 32
  | 3 => c.lastDone.setWidth 32
  | 4 => c.stopChunk.setWidth 32
  | 5 => c.descDone
  | 6 => c.chunksDone
  | _ => 0

/-- The most units owed by a rank of the channel (R329). -/
def postponed (m : Mc) : Nat := m.owed.foldl max 0

/-- A DRAM channel block word (Table 6.8); an unused channel reads 0 but for its two LK words. -/
def mcWord (m : Mc) (o : Nat) : Word :=
  if o = 1 then wd (m.yokeThresh.toNat * 65536 + bit m.yokeEn 12 + m.coinK.toNat * 256 + bit m.coinEn 4 + bit m.hintPolicy 0)
  else if o = 2 then wd (m.retrainPeriod.toNat * 256 + bit m.tempTrigEn 1 + bit m.retrainEn 0)
  else if !m.used then 0
  else if 0x10 ≤ o && o ≤ 0x19 then m.train.getD (o - 0x10) 0
  else match o with
    | 0x00 => wd (bit m.used 31 + bit m.trained 30 + bit m.frozen 29 + bit m.captureValid 28 + bit m.refresh2x 27 + bit m.retraining 26
        + m.ranks.toNat * 2 ^ 24 + m.density.toNat * 2 ^ 20 + m.mr4.toNat * 2 ^ 8 + postponed m % 16)
    | 0x04 => m.corrected
    | 0x05 => m.uncorrectable ++ m.freezes
    | 0x06 => m.rfmIssued
    | 0x07 => m.yokeHolds
    | 0x08 => m.tempRetrains ++ m.retrains
    | _ => 0

/-- An image-store word (Table 6.9). -/
def Dev.imgWord (d : Dev) (o : Nat) : Word :=
  let i := d.img
  match o with
  | 0x00 => d.imageWord
  | 0x01 => if i.state = 0xFF then 0 else i.generation
  | 0x03 => i.targetMap
  | 0x04 => wd (i.tricklePeriod.toNat * 65536 + i.trickleShare.toNat * 256 + bit i.trickleEn 0)
  | 0x05 => wd (if i.usable then d.freeSlots else 0)
  | 0x06 => wd (i.gcRuns.toNat * 65536 + bit d.gcActive 0)
  | 0x08 => i.ratedCycles.setWidth 32
  | 0x09 => i.allowDayMib
  | 0x0A => satBits 32 i.usedMib
  | 0x0B => satBits 32 i.lifeGib
  | 0x0C => i.peMax ++ i.peAvg
  | 0x0D => i.serviceDays.setWidth 32
  | 0x0E => i.scrubPasses ++ i.scrubHours
  | 0x0F => i.badBlocks.setWidth 32
  | 0x10 => i.commits
  | 0x11 => i.trickled
  | 0x12 => i.bchCorrected
  | 0x13 => i.bchUncorrectable.setWidth 32
  | _ => 0

/-- A cipher word (Table 6.10). -/
def Dev.cipWord (d : Dev) (o : Nat) : Word :=
  let c := d.cip
  if 0x09 ≤ o && o ≤ 0x0F then (c.boundary.getD (o - 9) 0).setWidth 32
  else match o with
    | 0x00 => d.keySummary
    | 0x01 => c.imkGen
    | 0x02 => c.escrowCheck
    | 0x03 => wd (d.ident.cert.length % 8192)
    | 0x08 => c.imageBoundary
    | 0x10 => wd (bit c.verifyFirst 0)
    | 0x11 => c.lateAuthFails.setWidth 32
    | 0x12 => wd c.poison.length
    | 0x13 => c.alarmWorst.setWidth 32
    | 0x14 => c.rekeyShare.setWidth 32
    | _ => 0

/-- A rail or sequencer word (Table 6.11). -/
def Dev.railWord (d : Dev) (o : Nat) : Word :=
  let r := d.rail
  if o < 0x10 then
    let s := d.slot o
    wd (s.st.code * 2 ^ 28 + bit s.pg 24 + s.faultCount.toNat * 2 ^ 16 + s.vs.toNat)
  else if 0x40 ≤ o && o ≤ 0x7F then r.program.getD (o - 0x40) 0
  else if 0x80 ≤ o && o ≤ 0x9F then
    let e := (d.slot ((o - 0x80) / 2)).entry
    if o % 2 = 0 then e.extractLsb' 32 32 else e.extractLsb' 0 32
  else if 0xA0 ≤ o && o ≤ 0xBF then
    let e := r.deps.getD ((o - 0xA0) / 2) 0
    if o % 2 = 0 then e.extractLsb' 32 32 else e.extractLsb' 0 32
  else match o with
    | 0x10 => wd (d.seqWord + bit r.faultValid 7 + r.faultRail.toNat)
    | 0x11 => r.coalesced.setWidth 32
    | 0x12 => wd (r.snapTotal.toNat * 65536 + r.snaps.length)
    | 0x18 => d.adc.vin.setWidth 32
    | 0x19 => d.adc.vstore.setWidth 32
    | 0x1A => d.adc.ichg.setWidth 32
    | 0x20 => r.header
    | _ => 0

/-- A herd word (Table 6.12). -/
def herdWord (h : Herd) (o : Nat) : Word :=
  match o with
  | 0 => wd (h.st.toNat * 2 ^ 28 + bit h.joined 24 + h.addr.toNat * 2 ^ 16 + bit h.line 12 + bit h.pulling 8 + h.policy.toNat)
  | 1 => h.tStall.setWidth 32
  | 2 => h.stalls ++ h.steps
  | 3 => wd (h.lastStallLen.toNat * 65536 + h.lastStallState.toNat)
  | _ => 0

/-- A Rooster word (Table 6.13), at its offset from 0x0F80. -/
def rooWord (r : Roo) (o : Nat) : Word :=
  match o with
  | 0 => wd (bit r.beaconEn 24 + r.interval.toNat * 65536 + bit r.duty 8 + r.khz.toNat)
  | 1 => r.shortId.setWidth 32
  | 2 => wd (r.lastKey.toNat * 2 ^ 24 + r.repeats.toNat * 256 + bit r.keyHeld 1 + bit r.alarm 0)
  | 3 => r.framesBad ++ r.framesRx
  | 4 => r.beaconsSent.setWidth 32
  | _ => 0

/-- An energy word (Table 6.14). -/
def Dev.egyWord (d : Dev) (o : Nat) : Word :=
  let e := d.egy
  match o with
  | 0 => e.eAvail
  | 1 => e.capMf
  | 2 => (satBits 16 (e.testAgeMs / 3600000) : BitVec 16) ++ e.esr
  | 3 => e.vFull ++ e.vFloor
  | 4 => e.vinScale ++ e.vstoreScale
  | 5 => e.costFixed
  | 6 => e.costPj
  | 7 => e.saveBudget
  | 8 => wd (e.charger.code * 2 ^ 28 + e.iset.toNat * 65536 + bit e.calRunning 1 + bit e.test.isSome 0)
  | 9 => e.isetMax.setWidth 32
  | 10 => e.fails ++ e.tests
  | _ => 0

/-- A thermal word (Table 6.15). -/
def Dev.thermWord (d : Dev) (o : Nat) : Word :=
  let t := d.therm
  if 8 ≤ o && o ≤ 15 then t.hist.getD (o - 8) 0
  else match o with
    | 0 => (tempByte t.tDie).setWidth 32
    | 1 => d.tdWord
    | 2 => wd (bit t.active 31 + t.tdUsed.toNat * 65536 + t.off.toNat * 256 + t.on.toNat)
    | 3 => (tempByte t.tMax).setWidth 32
    | 0x10 => t.events.setWidth 32
    | _ => 0

/-- HELD_TAGS. -/
def Dev.heldTags (d : Dev) : BitVec 64 := d.eu.held.foldl (fun acc h => acc ||| ((1 : BitVec 64) <<< h.tag.toNat)) 0

/-- Words 0x0000 to 0x00FF (Table 6.3). -/
def Dev.globalWord (d : Dev) (a : Nat) : Word :=
  match a with
  | 0x00 => 0x4E527240
  | 0x01 => 0x01004101
  | 0x02 => d.ident.serial.extractLsb' 32 32
  | 0x03 => d.ident.serial.extractLsb' 0 32
  | 0x04 => d.eu.stateSeq
  | 0x05 => wd (bit d.eu.locked 24 + d.eu.waitBytes.toNat * 256 + bit d.ident.strap1 1 + bit d.ident.strap0 0)
  | 0x06 => wd (bit d.clk.hoscOut 8 + d.clk.hoscDev.toNat)
  | 0x08 => wd (d.dcfg.chUsed.toNat * 65536 + d.dcfg.ways.toNat * 4096 + d.dcfg.grain.toNat * 256 + d.dcfg.opRate.toNat * 16)
  | 0x09 => d.dcfg.installedMib
  | 0x0A => d.dcfg.visibleMib
  | 0x0B => d.dcfg.keeperMib
  | 0x0C => d.dcfg.granules
  | 0xF0 => d.eu.scratch.getD 0 0
  | 0xF1 => d.eu.scratch.getD 1 0
  | 0xF2 => d.eu.scratch.getD 2 0
  | 0xF3 => d.eu.scratch.getD 3 0
  | _ => 0

/-- LATE_COUNT of two tasks in a word. -/
def Dev.lateWord (d : Dev) (t u : Nat) : Word := (d.task t).late ++ (d.task u).late

/-- Words 0x0100 to 0x01FF (Table 6.4). -/
def Dev.modeWord (d : Dev) (a : Nat) : Word :=
  match a with
  | 0x00 => wd (d.ctl.mode.code * 2 ^ 29 + d.stepCode * 2 ^ 25 + bit d.ctl.hostPath 20 + d.ctl.pathCause.toNat * 65536
      + bit d.ctl.saveArmed 12 + d.ctl.lastTrigger.toNat * 256 + bit d.clk.src 4 + bit d.clk.switching 3 + d.ctl.resetCause.toNat)
  | 0x01 => d.ctl.resumeCount.setWidth 32
  | 0x04 => wd (d.eu.queue.length * 65536 + d.eu.lost.toNat)
  | 0x05 => wd (d.eu.held.length % 16)
  | 0x06 => d.heldTags.extractLsb' 32 32
  | 0x07 => d.heldTags.extractLsb' 0 32
  | 0x08 => d.eu.syncErrors ++ d.eu.crcErrors
  | 0x09 => d.eu.abandoned.setWidth 32
  | 0x10 => d.lateWord 0 1
  | 0x11 => d.lateWord 2 3
  | 0x12 => d.lateWord 4 5
  | 0x13 => d.lateWord 6 7
  | 0x14 => d.lateWord 8 9
  | 0x15 => (d.task 10).late.setWidth 32
  | 0x16 => wd (d.tasks.zipIdx.foldl (fun acc p => acc + bit p.1.behind p.2) 0)
  | 0x18 => d.ctl.safeholdCauses
  | 0x19 => wd (bit d.eu.domainFaultSeen 3 + bit d.eu.overflowSeen 2 + bit d.eu.refclkLostSeen 1 + bit d.eu.hoscDriftSeen 0)
  | 0x20 => wd (d.adm.pct.toNat * 256 + d.adm.mode.toNat)
  | 0x21 => wd d.dirtyTotal
  | 0x22 => wd d.dirtyMust
  | 0x23 => wd d.dirtyShould
  | 0x24 => d.adm.limit
  | 0x25 => wd (d.adm.holdCount.toNat * 65536 + bit d.adm.holding 0)
  | _ => 0

/-- Words 0x0600 to 0x0606 (Table 6.7). -/
def Dev.epochWord (d : Dev) (o : Nat) : Word :=
  match o with
  | 0 => d.reg.epoch
  | 1 => d.oldestLive
  | 2 => d.stagedMask.extractLsb' 32 32
  | 3 => d.stagedMask.extractLsb' 0 32
  | 4 => (d.reg.faultAddr.extractLsb' 32 8).setWidth 32
  | 5 => d.reg.faultAddr.extractLsb' 0 32
  | 6 => wd (d.reg.faultOrigin.toNat * 16 + d.reg.faultId.toNat)
  | _ => 0

/-- The value of a Ledger word; an unassigned address reads 0 (R121, R177). -/
def Dev.ledger (d : Dev) (a : Nat) : Word :=
  if a < 0x100 then d.globalWord a
  else if a < 0x200 then d.modeWord (a - 0x100)
  else if a < 0x300 then fabWord d.fa (a - 0x200)
  else if a < 0x400 then fabWord d.fb (a - 0x300)
  else if a < 0x600 then regionWord (d.region ((a - 0x400) / 8)) (a % 8)
  else if a < 0x610 then d.epochWord (a - 0x600)
  else if a < 0x650 then ceWord ((a - 0x610) / 16) (d.engine ((a - 0x610) / 16)) (a % 16)
  else if a < 0x800 then 0
  else if a < 0xC00 then mcWord (d.chan ((a - 0x800) / 256)) (a % 256)
  else if a < 0xD00 then d.imgWord (a - 0xC00)
  else if a < 0xE00 then d.cipWord (a - 0xD00)
  else if a < 0xF00 then d.railWord (a - 0xE00)
  else if a < 0xF80 then herdWord d.herd (a - 0xF00)
  else if a < 0x1000 then rooWord d.roo (a - 0xF80)
  else if a < 0x1100 then d.egyWord (a - 0x1000)
  else if a < 0x1200 then d.thermWord (a - 0x1100)
  else if a < 0x2000 then 0
  else if a < 0x2100 then (d.rail.snaps.getD ((a - 0x2000) / 32) []).getD (a % 32) 0
  else if a < 0x2140 then
    let m := d.chan ((a - 0x2100) / 16)
    if m.captureValid then m.capture.getD (a % 16) 0 else 0
  else 0

/-- Whether the map assigns an address (Tables 6.3 to 6.16). -/
def assigned (a : Nat) : Bool :=
  a ≤ 6 || (8 ≤ a && a ≤ 0xC) || (0xF0 ≤ a && a ≤ 0xF3)
    || a = 0x100 || a = 0x101 || (0x104 ≤ a && a ≤ 0x109) || (0x110 ≤ a && a ≤ 0x116) || a = 0x118 || a = 0x119
    || (0x120 ≤ a && a ≤ 0x125)
    || (0x200 ≤ a && a < 0x400 && [0x00, 0x01, 0x04, 0x05, 0x06, 0x08, 0x09, 0x10, 0x11, 0x12, 0x18, 0x19].contains (a % 256))
    || (0x400 ≤ a && a < 0x600)
    || (0x600 ≤ a && a ≤ 0x606) || (0x610 ≤ a && a < 0x650 && a % 16 ≤ 6)
    || (0x800 ≤ a && a < 0xC00 && (a % 256 ≤ 2 || (4 ≤ a % 256 && a % 256 ≤ 8) || (0x10 ≤ a % 256 && a % 256 ≤ 0x19)))
    || (0xC00 ≤ a && a ≤ 0xC13 && a ≠ 0xC02 && a ≠ 0xC07)
    || (0xD00 ≤ a && a ≤ 0xD14 && !(4 ≤ a - 0xD00 && a - 0xD00 ≤ 7))
    || (0xE00 ≤ a && a ≤ 0xE12) || (0xE18 ≤ a && a ≤ 0xE1A) || a = 0xE20 || (0xE40 ≤ a && a ≤ 0xEBF)
    || (0xF00 ≤ a && a ≤ 0xF03) || (0xF80 ≤ a && a ≤ 0xF84)
    || (0x1000 ≤ a && a ≤ 0x100A)
    || (0x1100 ≤ a && a ≤ 0x1103) || (0x1108 ≤ a && a ≤ 0x1110)
    || (0x2000 ≤ a && a < 0x2140)

/-- The LK bits of a word (LOCK freezes these, R3 and R134). -/
def lkMask (a : Nat) : Word :=
  if a = 0x0005 then 0x00003F00
  else if a = 0x0008 then 0x00003730
  else if a = 0x0120 then 0x00007F03
  else if a = 0x0201 || a = 0x0301 then 0x00010F03
  else if 0x800 ≤ a && a < 0xC00 && a % 256 = 1 then 0xFFFF1F11
  else if 0x800 ≤ a && a < 0xC00 && a % 256 = 2 then 0x0000FF03
  else if a = 0x0C04 then 0xFFFF3F01
  else if a = 0x0C08 then 0x0000FFFF
  else if a = 0x0D14 then 0x000000FF
  else if a = 0x0F80 then 0x01FF01FF
  else if a = 0x0F81 then 0x0000FFFF
  else if a = 0x1003 || a = 0x1004 then 0xFFFFFFFF
  else if a = 0x1009 then 0x000000FF
  else if a = 0x1102 then 0x000FFFFF
  else 0

/-- The RW bits of a word: the scratch words. No word of the map has a WO field. -/
def rwMask (a : Nat) : Word := if 0xF0 ≤ a && a ≤ 0xF3 then 0xFFFFFFFF else 0

/-- The W1C bits of a word. -/
def w1cMask (a : Nat) : Word := if a = 0x119 then 0xF else 0

/-- The RC fields of a word, as (lowest bit, width). -/
def rcFields (a : Nat) : List (Nat × Nat) :=
  if a = 0x108 then [(16, 16), (0, 16)]
  else if a = 0x109 then [(0, 16)]
  else if 0x200 ≤ a && a < 0x400 then
    (match a % 256 with
      | 0x05 | 0x06 | 0x10 | 0x11 => [(16, 16), (0, 16)]
      | 0x12 => [(0, 16)]
      | _ => [])
  else if 0x800 ≤ a && a < 0xC00 then
    (match a % 256 with
      | 0x04 | 0x07 => [(0, 32)]
      | 0x05 => [(16, 16)]
      | _ => [])
  else if a = 0xC12 then [(0, 32)]
  else if a = 0xC13 || a = 0xD11 || a = 0xE11 then [(0, 16)]
  else if a = 0xF02 then [(16, 16)]
  else if a = 0xF83 then [(16, 16), (0, 16)]
  else []

/-- A counter reduced by a returned value, not below 0 (R123). -/
def reduce {n : Nat} (c r : BitVec n) : BitVec n := if r.toNat ≤ c.toNat then c - r else 0

/-- The RC fields of word `a` reduced by the value `r` the transaction returned (R123, R178). -/
def Dev.rcClear (d : Dev) (a : Nat) (r : Word) : Dev :=
  let hi : BitVec 16 := r.extractLsb' 16 16
  let lo : BitVec 16 := r.extractLsb' 0 16
  let onFab := fun (f : Fab) => match a % 256 with
    | 0x05 => { f with replays := reduce f.replays hi, naksSent := reduce f.naksSent lo }
    | 0x06 => { f with crcErrors := reduce f.crcErrors hi, retrains := reduce f.retrains lo }
    | 0x10 => { f with cplRegionFault := reduce f.cplRegionFault hi, cplFrozen := reduce f.cplFrozen lo }
    | 0x11 => { f with cplPoisoned := reduce f.cplPoisoned hi, cplUnmapped := reduce f.cplUnmapped lo }
    | 0x12 => { f with cplNotAdmitted := reduce f.cplNotAdmitted lo }
    | _ => f
  let onMc := fun (m : Mc) => match a % 256 with
    | 0x04 => { m with corrected := reduce m.corrected r }
    | 0x05 => { m with uncorrectable := reduce m.uncorrectable hi }
    | 0x07 => { m with yokeHolds := reduce m.yokeHolds r }
    | _ => m
  if a = 0x108 then { d with eu := { d.eu with syncErrors := reduce d.eu.syncErrors hi, crcErrors := reduce d.eu.crcErrors lo } }
  else if a = 0x109 then { d with eu := { d.eu with abandoned := reduce d.eu.abandoned lo } }
  else if 0x200 ≤ a && a < 0x300 then d.onPort .fa onFab
  else if 0x300 ≤ a && a < 0x400 then d.onPort .fb onFab
  else if 0x800 ≤ a && a < 0xC00 then d.onChan ((a - 0x800) / 256) onMc
  else if a = 0xC12 then { d with img := { d.img with bchCorrected := reduce d.img.bchCorrected r } }
  else if a = 0xC13 then { d with img := { d.img with bchUncorrectable := reduce d.img.bchUncorrectable lo } }
  else if a = 0xD11 then { d with cip := { d.cip with lateAuthFails := reduce d.cip.lateAuthFails lo } }
  else if a = 0xE11 then { d with rail := { d.rail with coalesced := reduce d.rail.coalesced lo } }
  else if a = 0xF02 then { d with herd := { d.herd with stalls := reduce d.herd.stalls hi } }
  else if a = 0xF83 then { d with roo := { d.roo with framesBad := reduce d.roo.framesBad hi, framesRx := reduce d.roo.framesRx lo } }
  else d

/-- The RC fields of the words `a` to `a + ws.length - 1`, returned as `ws`, reduced. -/
def Dev.rcClearAll (d : Dev) (a : Nat) (ws : List Word) : Dev :=
  ws.zipIdx.foldl (fun d (p : Word × Nat) => d.rcClear (a + p.2) p.1) d

/-- Field `[hi:lo]` of a word as a number. -/
def wf (w : Word) (hi lo : Nat) : Nat := field w.toNat hi lo

/-- Whether every LK and RW field of a word would hold a value its description allows (R180). -/
def Dev.ledgerValid (d : Dev) (a : Nat) (w : Word) : Bool :=
  if a = 0x0005 then 2 ≤ wf w 13 8 && wf w 13 8 ≤ 32
  else if a = 0x0008 then
    wf w 13 12 ≤ 2 && wf w 10 8 ≤ 5 && (d.dcfg.chUsed = 0 || 2 ^ wf w 13 12 ≤ d.usedChannels.length)
  else if a = 0x0120 then 50 ≤ wf w 14 8 && wf w 14 8 ≤ 100 && wf w 1 0 ≤ 2
  else if a = 0x0201 || a = 0x0301 then [1, 2, 4, 8].contains (wf w 11 8) && wf w 1 0 ≠ 0
  else if 0x800 ≤ a && a < 0xC00 && a % 256 = 1 then 256 ≤ wf w 31 16 && 4 ≤ wf w 11 8
  else if 0x800 ≤ a && a < 0xC00 && a % 256 = 2 then wf w 15 8 ≠ 0
  else if a = 0x0C04 then wf w 31 16 ≠ 0 && 1 ≤ wf w 13 8 && wf w 13 8 ≤ 50
  else if a = 0x0C08 then wf w 15 0 ≠ 0
  else if a = 0x0D14 then 1 ≤ wf w 7 0 && wf w 7 0 ≤ 25
  else if a = 0x0F80 then wf w 23 16 ≠ 0 && 20 ≤ wf w 7 0 && wf w 7 0 ≤ 60
  else if a = 0x1003 then wf w 31 16 ≠ 0 && wf w 15 0 ≠ 0 && wf w 15 0 < wf w 31 16
  else if a = 0x1004 then wf w 31 16 ≠ 0 && wf w 15 0 ≠ 0
  else if a = 0x1009 then wf w 7 0 ≠ 0
  else if a = 0x1102 then 100 ≤ wf w 7 0 && wf w 7 0 ≤ 150 && wf w 15 8 < wf w 7 0
  else true

/-- The word a write leaves: LK and RW bits from `v`, the rest as they were. -/
def written (a : Nat) (old v : Word) : Word :=
  let m := lkMask a ||| rwMask a
  (old &&& ~~~m) ||| (v &&& m)

/-- A write of PORT_EN, MAX_WIDTH and MAX_RATE (R213): PORT_EN = 0 is a port reset; PORT_EN = 1 lets the port train. -/
def Dev.setPortWord (d : Dev) (p : Port) (w : Word) : Dev :=
  let on := w.getLsbD 16
  let d1 := d.onPort p (fun f => { f with enabled := on, maxWidth := w.extractLsb' 8 4, maxRate := w.extractLsb' 0 2 })
  if (d.port p).enabled && !on then
    (if (d.port p).link = .disabled then d1.onPort p fabDown else d1.portDown p 1)
  else if !(d.port p).enabled && on then d1.portWake p
  else d1

/-- A reprogrammed period: T0 is now (R50). -/
def Dev.reanchor (d : Dev) (t : Nat) : Dev := d.onTask t (fun k => { k with anchor := some d.ctl.uptimeMs, missed := 0 })

/-- The LK fields of a channel's two words (Table 6.8). -/
def Dev.setChanWord (d : Dev) (c o : Nat) (w : Word) : Dev :=
  if o = 1 then
    d.onChan c (fun m => { m with
      yokeThresh := w.extractLsb' 16 16, yokeEn := w.getLsbD 12, coinK := w.extractLsb' 8 4, coinEn := w.getLsbD 4
      hintPolicy := w.getLsbD 0 })
  else
    let old := (d.chan c).retrainPeriod
    let d1 := d.onChan c (fun m => { m with retrainPeriod := w.extractLsb' 8 8, tempTrigEn := w.getLsbD 1, retrainEn := w.getLsbD 0 })
    if old = w.extractLsb' 8 8 then d1 else d1.reanchor (4 + c)

/-- The word `a` takes the value `w` in its LK and RW fields (R120). -/
def Dev.ledgerSet (d : Dev) (a : Nat) (w : Word) : Dev :=
  if a = 0x0005 then { d with eu := { d.eu with waitBytes := w.extractLsb' 8 6 } }
  else if a = 0x0008 then { d with dcfg := { d.dcfg with ways := w.extractLsb' 12 2, grain := w.extractLsb' 8 3, opRate := w.extractLsb' 4 2 } }
  else if 0xF0 ≤ a && a ≤ 0xF3 then { d with eu := { d.eu with scratch := listUpd d.eu.scratch (a - 0xF0) (fun _ => w) } }
  else if a = 0x0120 then { d with adm := { d.adm with pct := w.extractLsb' 8 7, mode := w.extractLsb' 0 2 } }
  else if a = 0x0201 then d.setPortWord .fa w
  else if a = 0x0301 then d.setPortWord .fb w
  else if 0x800 ≤ a && a < 0xC00 then d.setChanWord ((a - 0x800) / 256) (a % 256) w
  else if a = 0x0C04 then
    let d1 := { d with img := { d.img with tricklePeriod := w.extractLsb' 16 16, trickleShare := w.extractLsb' 8 6, trickleEn := w.getLsbD 0 } }
    if d.img.tricklePeriod = w.extractLsb' 16 16 then d1 else d1.reanchor 8
  else if a = 0x0C08 then { d with img := { d.img with ratedCycles := w.extractLsb' 0 16, ratedWritten := some (w.extractLsb' 0 16) } }
  else if a = 0x0D14 then { d with cip := { d.cip with rekeyShare := w.extractLsb' 0 8 } }
  else if a = 0x0F80 then
    { d with roo := { d.roo with beaconEn := w.getLsbD 24, interval := w.extractLsb' 16 8, duty := w.getLsbD 8, khz := w.extractLsb' 0 8 } }
  else if a = 0x0F81 then { d with roo := { d.roo with shortId := w.extractLsb' 0 16 } }
  else if a = 0x1003 then ({ d with egy := { d.egy with vFull := w.extractLsb' 16 16, vFloor := w.extractLsb' 0 16 } }).chargerEval
  else if a = 0x1004 then ({ d with egy := { d.egy with vinScale := w.extractLsb' 16 16, vstoreScale := w.extractLsb' 0 16 } }).chargerEval
  else if a = 0x1009 then ({ d with egy := { d.egy with isetMax := w.extractLsb' 0 8 } }).chargerEval
  else if a = 0x1102 then
    { d with therm := { d.therm with tdUsed := w.extractLsb' 16 4, off := w.extractLsb' 8 8, on := w.extractLsb' 0 8 } }
  else d

/-- The bits of word `a` that the data plane has changed in the cycle it shares with a commit; a flag of word 0x0119 set again is
among them (R124). The cycle's events are the newest of the queue. -/
def Dev.changedBits (d : Dev) (shared : Option Dev) (a : Nat) : Word :=
  match shared with
  | none => 0
  | some z =>
    let seen := fun (code : Nat) => (d.eu.queue.drop z.eu.queue.length).any (fun e => e.code = BitVec.ofNat 16 code)
    (z.ledger a ^^^ d.ledger a) ||| (if a = 0x119 then wd (bit (seen 0x0E70) 3 + bit (seen 0x0140) 1 + bit (seen 0x0142) 0) else 0)

/-- The commit of a write of `v` to the bits `touch` of word `a`: LK and RW fields take the value when one of them changes (and then
STATE_SEQ counts, R182), W1C flags written 1 are cleared. The bits that the data plane changes in the same cycle keep its value,
and LEDGER_OVERRIDDEN is emitted when the command wrote one of them (R124, R629). -/
def Dev.ledgerWrite (d : Dev) (x : Xact) (shared : Option Dev) (a : Nat) (touch v : Word) : Dev :=
  let old := d.ledger a
  let plane := d.changedBits shared a
  let new := written a old ((v &&& ~~~plane) ||| (old &&& plane))
  let clear := v &&& w1cMask a &&& ~~~plane
  let d1 := if new = old then d else
    let d2 := d.ledgerSet a new
    { d2 with out := { d2.out with bump := true } }
  let d2 := if a = 0x119 then
    { d1 with eu := { d1.eu with
      domainFaultSeen := d1.eu.domainFaultSeen && !clear.getLsbD 3, overflowSeen := d1.eu.overflowSeen && !clear.getLsbD 2
      refclkLostSeen := d1.eu.refclkLostSeen && !clear.getLsbD 1, hoscDriftSeen := d1.eu.hoscDriftSeen && !clear.getLsbD 0 } }
    else d1
  if plane &&& ((touch &&& (lkMask a ||| rwMask a)) ||| (v &&& w1cMask a)) = 0 then d2
  else d2.emit 0x0107 (packBytes [(2, a), (1, x.tag.toNat)])

/-- The value a LEDGER_MODIFY writes to a word that holds `old` (Table 4.4). -/
def modified (old mask v : Word) : Word := (old &&& ~~~mask) ||| (v &&& mask)

/-- DENIED_LOCK: the write would change an LK field after LOCK (R122). -/
def writeLocked (d : Dev) (a : Nat) (v : Word) : Bool :=
  d.eu.locked && (written a (d.ledger a) v ^^^ d.ledger a) &&& lkMask a ≠ 0

/-- BAD_PARAM: an unassigned word, or a change that leaves an invalid value (R121, R180). -/
def writeValid (d : Dev) (a : Nat) (v : Word) : Bool :=
  assigned a && (written a (d.ledger a) v = d.ledger a || d.ledgerValid a (written a (d.ledger a) v))

/-- DENIED_STATE: a WAIT_RAILS-only field would change outside WAIT_RAILS (R181). Every LK field of word 0x0008 is one. -/
def writeTimed (d : Dev) (a : Nat) (v : Word) : Option Byte :=
  if a = 0x0008 && written a (d.ledger a) v ≠ d.ledger a && !inW d then some stDeniedState else none

/-- LEDGER_WRITE of a word (Tables 4.4, 5.7). -/
def ledgerWriteCmd (x : Xact) (shared : Option Dev) (a : Nat) (v : Word) : Cmd :=
  { opcode := 0x09, len := fun k => k = 6, modes := inWOR, lock := fun sd => writeLocked sd a v, valid := fun sd => writeValid sd a v
    query := false, cond := fun sd => writeTimed sd a v, reply := fun sd _ => (stOk, [sd.eu.stateSeq]), modeChange := false
    clear := fun d => d, effect := fun _ d => (d.ledgerWrite x shared a 0xFFFFFFFF v).everyCycle }

/-- LEDGER_MODIFY of a word: judged on the snapshot, applied to the live word; the word is returned, so its RC fields are
reduced (Table 4.4). -/
def ledgerModifyCmd (x : Xact) (shared : Option Dev) (sd : Dev) (a : Nat) (mask v : Word) : Cmd :=
  { opcode := 0x0B, len := fun k => k = 10, modes := inWOR
    lock := fun d => writeLocked d a (modified (d.ledger a) mask v)
    valid := fun d => writeValid d a (modified (d.ledger a) mask v), query := false
    cond := fun d => writeTimed d a (modified (d.ledger a) mask v)
    reply := fun d _ => (stOk, [d.eu.stateSeq, d.ledger a]), modeChange := false
    clear := fun d => d.rcClear a (sd.ledger a)
    effect := fun _ d => (d.ledgerWrite x shared a mask (modified (if a = 0x119 then 0 else d.ledger a) mask v)).everyCycle }

end Sys2Proof.Machine
end

