-- ==== Sys2Proof/Machine/Eulan.lean ====
section
/-! DEFINITION. The Eulan port's own commands: NOP to LEDGER_MODIFY, LOCK, the held results, the diagnostic reads, and what
the port does with a bad or abandoned transaction (chapters 4 to 6). -/
namespace Sys2Proof.Machine
open Sys2Proof

/-- The outcome of every meaning: the machine goes on. -/
abbrev Out := Host.Outcome State Fault Refusal

/-! ### Identity (R149 to R151) -/

/-- IDENT W0 to W5 (Table 5.5). -/
def identPayload (d : Dev) : List Word :=
  d.identWords ++
    [wd (d.ctl.mode.code * 2 ^ 29 + d.stepCode * 2 ^ 25 + bit d.eu.locked 24 + bit d.ident.strap1 23 + bit d.ident.strap0 22
      + d.eu.waitBytes.toNat * 65536), d.eu.stateSeq]

/-- ATTEST W0 to W5, from the snapshot of its transaction (Table 5.6, R630). -/
def attestHead (sd : Dev) : List Word :=
  sd.identWords ++
    [wd (sd.ctl.mode.code * 2 ^ 29 + bit sd.eu.locked 28 + sd.img.state.toNat * 65536 + sd.img.flags.toNat * 256), sd.eu.stateSeq]

/-- The 12 words of a 48-byte value. -/
def words384 (v : BitVec 384) : List Word := (List.range 12).map (fun i => v.extractLsb' (32 * (11 - i)) 32)

/-- What ATTEST work ends with (R151, R461). -/
def attestResult (d : Dev) (nonce : BitVec 384) (head : List Word) : Byte × List Word :=
  if d.cip.trngFault then (stFaultInternal, [])
  else
    let body := head ++ words384 (keyIdOf d.ident.dus)
    let sig := ecdsaSign (identityKey d.ident.dus) (bytesOf 48 nonce.toNat ++ body.flatMap wordBytes)
      ((List.range 4).map (fun i => (Config.nonce d.free i).toNat))
    (stOk, body ++ words384 sig.1 ++ words384 sig.2)

/-- NOP (R149). -/
def execNop (x : Xact) (s : State) : Out := .next (transact s x (Cmd.plain 0x00 0 (fun sd => [sd.eu.stateSeq])))

/-- IDENT (R150). -/
def execIdent (x : Xact) (s : State) : Out := .next (transact s x (Cmd.plain 0x01 0 identPayload))

/-- ATTEST (R151, R461). -/
def execAttest (x : Xact) (nonce : BitVec 384) (done : Option Nat) (s : State) : Out :=
  .next (transact s x
    { opcode := 0x02, len := fun k => k = 48, modes := inORH, lock := fun _ => false, valid := fun _ => true, query := true
      cond := fun _ => none
      reply := fun sd rd => queryReply sd rd ((s.finished x done).map (fun f => attestResult f nonce (attestHead sd)))
      modeChange := false, clear := fun d => d
      effect := fun sd d => takeSlot s x done (.attest nonce (attestHead sd)) (if (s.finished x done).isSome then d.used else d) })

/-- The slot that holds a tag. -/
def heldSlot (d : Dev) (tag : BitVec 6) : Option Held := d.eu.held.find? (fun h => h.tag = tag)

/-- FETCH (R108, R147), judged against the live slots when its reply is produced (R110). -/
def execFetch (x : Xact) (tagByte : Byte) (s : State) : Out :=
  let tag : BitVec 6 := tagByte.extractLsb' 2 6
  .next (transact s x
    { opcode := 0x03, len := fun k => k = 1, modes := inAll, lock := fun _ => false
      valid := fun _ => tagByte.extractLsb' 0 2 = 0 && holds (s.atReply x) tag
      query := false, cond := fun _ => none
      reply := fun _ rd => match (heldSlot rd tag).bind (·.result) with | some r => r | none => (stBusy, [])
      modeChange := false, clear := fun d => d
      effect := fun _ d =>
        if ((heldSlot (s.atReply x) tag).bind (·.result)).isSome then { d with eu := { d.eu with held := d.eu.held.filter (fun h => h.tag ≠ tag) } }
        else d })

/-! ### The event queue (R128, R129) -/

/-- The two words of an event entry (Table 4.5). -/
def eventWords (e : Event) : List Word := [e.code ++ e.param.extractLsb' 32 16, e.param.extractLsb' 0 32]

/-- The reply of EVENT_POP (R128). -/
def popPayload (n : Nat) (sd : Dev) : List Word :=
  let k := min n sd.eu.queue.length
  [sd.eu.stateSeq, wd ((sd.eu.queue.length - k) * 2 ^ 24 + sd.eu.lost.toNat)] ++ (sd.eu.queue.take k).flatMap eventWords

/-- EVENT_POP. -/
def execEventPop (x : Xact) (count : Byte) (s : State) : Out :=
  .next (transact s x
    { Cmd.plain 0x04 1 (popPayload count.toNat) with
      valid := fun _ => count.toNat ≤ 32
      effect := fun sd d => { d with out := { d.out with pop := min count.toNat sd.eu.queue.length } } })

/-! ### The Ledger (Table 4.4) -/

/-- LEDGER_READ. -/
def execLedgerRead (x : Xact) (addr : BitVec 16) (s : State) : Out :=
  let sd := s.view x
  .next (transact s x
    { Cmd.plain 0x08 2 (fun sd => [sd.eu.stateSeq, sd.ledger addr.toNat]) with
      clear := fun d => d.rcClear addr.toNat (sd.ledger addr.toNat) })

/-- The words a block read returns. -/
def blockWords (sd : Dev) (a n : Nat) : List Word := (List.range n).map (fun i => sd.ledger (a + i))

/-- LEDGER_READ_BLOCK (R152). -/
def execLedgerReadBlock (x : Xact) (addr : BitVec 16) (count : Byte) (s : State) : Out :=
  let sd := s.view x
  .next (transact s x
    { Cmd.plain 0x0A 3 (fun sd => sd.eu.stateSeq :: blockWords sd addr.toNat count.toNat) with
      valid := fun _ => 1 ≤ count.toNat && count.toNat ≤ 64 && addr.toNat + count.toNat ≤ 0x10000
      clear := fun d => d.rcClearAll addr.toNat (blockWords sd addr.toNat count.toNat) })

/-- LEDGER_WRITE. -/
def execLedgerWrite (x : Xact) (addr : BitVec 16) (value : Word) (s : State) : Out :=
  .next (transact s x (ledgerWriteCmd x (s.shared x) addr.toNat value))

/-- LEDGER_MODIFY. -/
def execLedgerModify (x : Xact) (addr : BitVec 16) (mask value : Word) (s : State) : Out :=
  .next (transact s x (ledgerModifyCmd x (s.shared x) (s.view x) addr.toNat mask value))

/-- LEDGER_WRITE of a port's word +0x01 (R213). -/
def execPortEnWrite (x : Xact) (port : Port) (value : Word) (s : State) : Out :=
  .next (transact s x (ledgerWriteCmd x (s.shared x) (match port with | .fa => 0x0201 | .fb => 0x0301) value))

/-- LEDGER_WRITE of word 0x0120 (R504). -/
def execAdmitModeWrite (x : Xact) (value : Word) (s : State) : Out := .next (transact s x (ledgerWriteCmd x (s.shared x) 0x0120 value))

/-- LEDGER_WRITE of a word that holds a task period (R50). -/
def execTaskPeriodWrite (x : Xact) (addr : BitVec 16) (value : Word) (s : State) : Out :=
  .next (transact s x (ledgerWriteCmd x (s.shared x) addr.toNat value))

/-- LOCK (R133, R134). -/
def execLock (x : Xact) (s : State) : Out :=
  .next (transact s x
    { Cmd.plain 0x7F 0 (fun _ => []) with
      modes := inOR
      effect := fun _ d => { d with eu := { d.eu with locked := true } } })

/-- A request with an opcode that Table 5.3 does not assign (check 3 of Table 4.9). -/
def execBadOpcode (x : Xact) (opcode : Byte) (s : State) : Out :=
  .next (if s.d.portLive then
      refuse s x opcode (if 252 < x.plen.toNat then stBadLength else if !x.crcOk then stBadCrc else stBadOpcode) false (s.view x)
    else { s with d := { s.d with eu := { s.d.eu with reply := none } } })

/-- A transaction whose byte 0 is not 0xA5 (R101). -/
def execBadSync (s : State) : Out :=
  .next (if s.d.portLive then
      s.done (endCycle s.d { s.d with eu := { s.d.eu with reply := none, syncErrors := satInc s.d.eu.syncErrors } })
    else { s with d := { s.d with eu := { s.d.eu with reply := none } } })

/-- A transaction whose EM_CS_N rises before its commit edge (R112); one answered BAD_CRC counts there too. -/
def execTransactionAbandon (badCrc : Bool) (s : State) : Out :=
  .next (if s.d.portLive then
      s.done (endCycle s.d { s.d with eu := { s.d.eu with
        reply := none, abandoned := satInc s.d.eu.abandoned
        crcErrors := if badCrc then satInc s.d.eu.crcErrors else s.d.eu.crcErrors } })
    else s)

/-! ### Class Q reads of captures and snapshots -/

/-- `n` words of a capture from word `o`. -/
def captureSlice (d : Dev) (c o n : Nat) : List Word := (List.range n).map (fun i => (d.chan c).capture.getD (o + i) 0)

/-- Whether a snapshot's CRC-32 is right (R490). -/
def snapshotGood (ws : List Word) : Bool := ws.length = 32 && crc32 ((ws.take 31).flatMap wordBytes) = ws.getD 31 0

/-- Snapshot `i` of the flash mirror, empty when its CRC fails. -/
def mirrorWords (d : Dev) (i : Nat) : List Word :=
  let ws := (match d.recordSet with | some r => r.mirror.getD i [] | none => [])
  if snapshotGood ws then ws else []

/-- What a held command's work ends with (R107, R630). -/
def workResult (d : Dev) : QWork → Byte × List Word
  | .attest nonce head => attestResult d nonce head
  | .diag c o n => (stOk, captureSlice d c o n)
  | .snapDie i => (stOk, d.rail.snaps.getD i [])
  | .snapFlash i => (stOk, mirrorWords d i)

/-- DIAG_FETCH (R164, R165, R379). -/
def execDiagFetch (x : Xact) (channel rsv : Byte) (offset : BitVec 16) (count : Byte) (done : Option Nat) (s : State) : Out :=
  let c := channel.toNat
  let work := QWork.diag c offset.toNat count.toNat
  .next (transact s x
    { opcode := 0x31, len := fun k => k = 5, modes := inORH, lock := fun _ => false
      valid := fun sd => c < 4 && (sd.chan c).used && rsv = 0 && 1 ≤ count.toNat && count.toNat ≤ 128 && offset.toNat + count.toNat ≤ 160
      query := true
      cond := fun sd => if (sd.chan c).captureValid then none else some stDeniedState
      reply := fun sd rd => queryReply sd rd ((s.finished x done).map (fun f => workResult f work))
      modeChange := false, clear := fun d => d, effect := fun _ d => takeSlot s x done work d })

/-- SNAPSHOT_READ with SOURCE = 0 (R172, R490). -/
def execSnapshotReadDie (x : Xact) (index : Byte) (done : Option Nat) (s : State) : Out :=
  let work := QWork.snapDie index.toNat
  .next (transact s x
    { opcode := 0x4A, len := fun k => k = 2, modes := fun d => inAll d && d.ctl.mode ≠ .save, lock := fun _ => false
      valid := fun _ => index.toNat < 8, query := true, cond := fun _ => none
      reply := fun sd rd => queryReply sd rd ((s.finished x done).map (fun f => workResult f work))
      modeChange := false, clear := fun d => d, effect := fun _ d => takeSlot s x done work d })

/-- SNAPSHOT_READ with SOURCE = 1, accepted in OPERATE, RESTORE and SAFEHOLD only (R148), or with a SOURCE that is not used. -/
def execSnapshotReadFlash (x : Xact) (index source : Byte) (done : Option Nat) (s : State) : Out :=
  let work := QWork.snapFlash index.toNat
  .next (transact s x
    { opcode := 0x4A, len := fun k => k = 2
      modes := fun d => if source = 1 then inORH d else inAll d && d.ctl.mode ≠ .save
      lock := fun _ => false, valid := fun _ => index.toNat < 8 && source = 1, query := true
      cond := fun sd => if sd.img.usable then none else some stFaultMedia
      reply := fun sd rd => queryReply sd rd ((s.finished x done).map (fun f => workResult f work))
      modeChange := false, clear := fun d => d, effect := fun _ d => takeSlot s x done work d })

/-- The work of a held command finishes (R107). -/
def finishHeld (tag : BitVec 6) (d : Dev) : Dev :=
  match heldSlot d tag with
  | some h =>
    if h.result.isSome then d
    else
      let r := workResult d h.work
      ({ d.used with eu := { d.eu with held := d.eu.held.map (fun (k : Held) => if k.tag = tag then { k with result := some r } else k) } }).emit
        0x0162 (packBytes [(1, tag.toNat), (1, r.1.toNat)])
  | none => d

/-- RESULT_READY. -/
def execResultReady (tag : BitVec 6) (s : State) : Out := .next (happen s (finishHeld tag))

end Sys2Proof.Machine
end

