-- ==== Sys2Proof/Machine/ModeCmds.lean ====
section
/-! DEFINITION. The mode commands of Table 5.8, each mode-changing under R25. -/
namespace Sys2Proof.Machine
open Sys2Proof

/-- A class A mode command. -/
def Cmd.mode (opcode : Byte) (n : Nat) (modes : Dev → Bool) (cond : Dev → Option Byte) (status : Dev → Byte)
    (effect : Dev → Dev → Dev) : Cmd :=
  { opcode := opcode, len := fun k => k = n, modes := modes, lock := fun _ => false, valid := fun _ => true, query := false
    cond := cond, reply := fun sd _ => (status sd, []), modeChange := true, clear := fun d => d, effect := effect }

/-- DENIED_STATE when a condition fails. -/
def deny (bad : Bool) : Option Byte := if bad then some stDeniedState else none

/-- Whether MODE_REQUEST with the path open is denied (R28). -/
def openDenied (d : Dev) : Bool := d.awaits || !d.clk.refGood || d.img.deferred

/-- MODE_REQUEST with PATH = 1 (R27, R28, R154). -/
def modeOpenCmd (x : Xact) (target : Byte) : Cmd :=
  { Cmd.mode 0x10 2 inO (fun sd => deny (!sd.ctl.hostPath && openDenied sd))
      (fun sd => if sd.ctl.hostPath then stOk else stPending)
      (fun sd d => if sd.ctl.hostPath then d else
        Cmd.act (fun d => inO d && !openDenied d) (modeVoid 0x10 x) (fun d => d.entryOperate (.modeRequest x.tag)) d) with
    valid := fun _ => target = 1 }

/-- MODE_REQUEST with PATH = 0 (R29, R154); any other PATH value is invalid. -/
def modeCloseCmd (x : Xact) (target path : Byte) : Cmd :=
  { Cmd.mode 0x10 2 inO (fun _ => none) (fun _ => stOk)
      (fun sd d => if !sd.ctl.hostPath then d else Cmd.act inO (modeVoid 0x10 x) (fun d => d.closePath 1) d) with
    valid := fun _ => target = 1 && path = 0 }

/-- MODE_REQUEST, path open. -/
def execModeRequestOpen (x : Xact) (target : Byte) (s : State) : Out := .next (transact s x (modeOpenCmd x target))

/-- MODE_REQUEST, path closed or out of range. -/
def execModeRequestClose (x : Xact) (target path : Byte) (s : State) : Out :=
  .next (transact s x (if path = 1 then modeOpenCmd x target else modeCloseCmd x target path))

/-- The conditions of SAVE_ARM in their order (R532, R660). -/
def armDenied (d : Dev) : Option Byte :=
  if !d.img.usable then some stFaultMedia
  else if d.unable then some stFaultEnergy
  else if !d.cip.bound then some stDeniedState
  else none

/-- SAVE_ARM (R155, R532, R533). -/
def execSaveArm (x : Xact) (s : State) : Out :=
  .next (transact s x (Cmd.mode 0x11 0 inOR (fun sd => if sd.ctl.saveArmed then none else armDenied sd) (fun _ => stOk)
    (fun sd d => if sd.ctl.saveArmed then d else
      Cmd.act (fun d => inOR d && (armDenied d).isNone) (modeVoid 0x11 x)
        (fun d => { d with ctl := { d.ctl with saveArmed := true } }) d)))

/-- SAVE_DISARM (R134, R155, R534). -/
def execSaveDisarm (x : Xact) (s : State) : Out :=
  .next (transact s x
    { Cmd.mode 0x12 0 inOR (fun _ => none) (fun _ => stOk)
        (fun sd d => if !sd.ctl.saveArmed then d else
          Cmd.act inOR (modeVoid 0x12 x) (fun d => { d with ctl := { d.ctl with saveArmed := false } }) d) with
      lock := fun sd => sd.eu.locked })

/-- SAVE_NOW's work: a cut cause in an ARMED herd, else trigger 5 (R156, R518). -/
def saveNowWork (d : Dev) : Dev := if d.herdArmed then d.herdCut true 5 else d.enterSave 5

/-- SAVE_NOW. -/
def execSaveNow (x : Xact) (s : State) : Out :=
  .next (transact s x (Cmd.mode 0x13 0 inOR (fun sd => deny (!sd.ctl.saveArmed)) (fun _ => stPending)
    (fun _ d => Cmd.act (fun d => inOR d && d.ctl.saveArmed) (modeVoid 0x13 x) saveNowWork d)))

/-- The conditions of RESTORE_BEGIN (R23, R424, R566, R660). -/
def restoreDenied (d : Dev) : Option Byte :=
  if !d.img.usable then some stFaultMedia
  else deny (d.ctl.pathOpened || d.ctl.hostPath || !d.ctl.saveArmed || d.img.state ≠ 1 || !d.cip.bound || d.img.deferred
    || d.mc.any (fun m => m.used && m.offline) || d.clk.src)

/-- RESTORE_BEGIN (R157, R566, R567). -/
def execRestoreBegin (x : Xact) (param : Byte) (s : State) : Out :=
  .next (transact s x
    { Cmd.mode 0x14 1 inO restoreDenied (fun _ => stPending)
        (fun _ d => Cmd.act (fun d => inO d && (restoreDenied d).isNone) (modeVoid 0x14 x) (fun d => d.beginRestore (param.getLsbD 0)) d) with
      valid := fun _ => param.extractLsb' 1 7 = 0 })

/-- RESTORE_ADMIT (R155, R572). -/
def execRestoreAdmit (x : Xact) (s : State) : Out :=
  .next (transact s x (Cmd.mode 0x15 0 inR (fun sd => deny (!sd.rst.admitted && sd.clk.src)) (fun _ => stOk)
    (fun sd d => if sd.rst.admitted then d else
      Cmd.act (fun d => inR d && !d.clk.src) (modeVoid 0x15 x)
        (fun d => ({ d with rst := { d.rst with admitted := true } }).openPath) d)))

/-- SAFEHOLD_ENTER (R584 cause 0). -/
def execSafeholdEnter (x : Xact) (s : State) : Out :=
  .next (transact s x (Cmd.mode 0x16 0 inOR (fun _ => none) (fun _ => stOk)
    (fun _ d => Cmd.act inOR (modeVoid 0x16 x) (fun d => d.latchCause 0) d)))

/-- SAFEHOLD_RELEASE (R591). -/
def execSafeholdRelease (x : Xact) (s : State) : Out :=
  .next (transact s x (Cmd.mode 0x17 0 inH (fun _ => none) (fun _ => stOk)
    (fun _ d => Cmd.act inH (modeVoid 0x17 x) (fun d => d.releaseSafehold.commitPassed) d)))

end Sys2Proof.Machine
end

