-- ==== Sys2Proof/Machine/Copy.lean ====
section
/-! DEFINITION. Regions, epochs and the copy engines: the commands of Table 5.9 and the start and end of a chunk (chapter 8). -/
namespace Sys2Proof.Machine
open Sys2Proof

/-! ### Regions and epochs -/

/-- REGION_STAGE (R158, R160, R260). -/
def execRegionStage (x : Xact) (region enable : Byte) (base limit : BitVec 24) (rights attr : Byte) (s : State) : Out :=
  let a := attrOf enable base limit rights attr
  .next (transact s x
    { Cmd.plain 0x20 10 (fun _ => []) with
      modes := inOR
      valid := fun _ => region.toNat < 64 && enable.extractLsb' 1 7 = 0 && base.toNat ≤ limit.toNat && rights.extractLsb' 6 2 = 0
        && a.saveClass ≠ 3 && a.hint ≠ 3 && !attr.getLsbD 0
      effect := fun _ d => d.onRegion region.toNat (fun r => { r with staged := some a }) })

/-- Whether any region is staged. -/
def Dev.anyStaged (d : Dev) : Bool := d.reg.regions.any (fun r => r.staged.isSome)

/-- A staging would make a domain without a key govern an enabled region (R442). -/
def Dev.keylessStaging (d : Dev) : Bool :=
  d.reg.regions.any (fun r => match r.staged with
    | some a => a.enable && a.domain ≠ 0 && d.cip.domKey.getD (a.domain.toNat - 1) 0 = 0
    | none => false)

/-- The domains of enabled regions, one bit each (bit d - 1). -/
def domainsOf (l : List RegAttr) : BitVec 7 :=
  l.foldl (fun (acc : BitVec 7) (a : RegAttr) =>
    if a.enable && a.domain ≠ 0 then acc ||| (BitVec.ofNat 7 (2 ^ (a.domain.toNat - 1))) else acc) (0#7)

/-- Every staged region becomes committed under the next epoch (R261, R435). -/
def Dev.commitRegions (d : Dev) : Dev :=
  let e := d.reg.epoch + 1
  let rs := d.reg.regions.map (fun r => match r.staged with
    | some a => { r with cur := a, commitEpoch := e, staged := none }
    | none => r)
  { d with
    reg := { d.reg with regions := rs, epoch := e }
    cip := { d.cip with keyed := d.cip.keyed ||| domainsOf (rs.map (·.cur)) } }

/-- REGION_COMMIT (R159, R262, R263, R442). -/
def execRegionCommit (x : Xact) (s : State) : Out :=
  .next (transact s x
    { opcode := 0x21, len := fun k => k = 0, modes := inOR, lock := fun _ => false, valid := fun _ => true, query := false
      cond := fun sd => deny (7 ≤ (sd.reg.epoch - sd.oldestLive).toNat)
      reply := fun sd _ => if sd.anyStaged then (stPending, [sd.reg.epoch + 1]) else (stOk, [sd.reg.epoch])
      modeChange := false, clear := fun d => d
      effect := fun sd d =>
        if !sd.anyStaged then d else
          Cmd.act (fun d => inOR d && d.anyStaged && !d.keylessStaging) (fun d => d.emit 0x0402 (sd.reg.epoch + 1).toNat)
            (fun d => d.commitRegions) d })

/-- DRAINED of EPOCH_QUERY (R161). -/
def drained (oldest e : Word) : Bool := !(oldest - e).msb

/-- EPOCH_QUERY. -/
def execEpochQuery (x : Xact) (epoch : Word) (s : State) : Out :=
  .next (transact s x (Cmd.plain 0x22 4 (fun sd => [sd.reg.epoch, sd.oldestLive, wd (bit (drained sd.oldestLive epoch) 0)])))

/-- A REGION_FAULT is recorded (R296); a fabric source's event is queued only when none of the same origin and ID waits. -/
def Dev.regionFault (d : Dev) (origin id addr : Nat) : Dev :=
  let tag := origin * 16 + id
  let d1 := { d with reg := { d.reg with
    faultAddr := BitVec.ofNat 40 addr, faultOrigin := BitVec.ofNat 2 origin, faultId := BitVec.ofNat 4 id } }
  let d2 := match governing d.attrs (addr / 65536) with
    | some (n, _) => d1.onRegion n (fun r => { r with faults := satInc r.faults })
    | none => d1
  let same := fun (e : Event) => e.code = 0x0400 && e.param.toNat / 2 ^ 40 = tag
  let waits := (d.eu.queue.drop d.out.pop).any same || d.out.events.any (fun p => same p.2)
  if origin < 2 && waits then d2 else d2.emit 0x0400 (packBytes [(1, tag), (5, addr)])

/-! ### Engine states (Table 8.5) -/

/-- The next DESC_ID (R162). -/
def nextDescId (i : BitVec 16) : BitVec 16 := if i = 0xFFFE then 0 else i + 1

/-- The engine takes its next descriptor, or goes IDLE. -/
def Dev.ceNext (d : Dev) (n : Nat) : Dev :=
  match (d.engine n).queue with
  | x :: t => d.onEngine n (fun c => { c with st := .running, cause := 0, run := some x, runChunk := 0, queue := t })
  | [] => (d.onEngine n (fun c => { c with st := .idle, run := none, runChunk := 0 })).emit 0x0411
      (packBytes [(1, n), (2, (d.engine n).lastDone.toNat)])

/-- The running descriptor is dropped; CE_CANCELLED names what the cancel named (R286). -/
def Dev.ceDrop (d : Dev) (n : Nat) (id : BitVec 16) : Dev :=
  (d.emit 0x0413 (packBytes [(1, n), (2, id.toNat)])).ceNext n

/-- CE_CMD_VOID (R287). -/
def ceVoid (n opcode : Nat) (id : BitVec 16) (d : Dev) : Dev := d.emit 0x0417 (packBytes [(1, n), (1, opcode), (2, id.toNat)])

/-- The state conditions of COPY_SUBMIT (R273, R424, Table 8.8). -/
def submitDenied (n : Nat) (d : Dev) : Bool := 16 ≤ ceDepth (d.engine n) || d.awaits || d.img.deferred

/-- A descriptor is accepted by an engine (R274). -/
def Dev.submit (d : Dev) (n : Nat) (x : Desc) : Dev :=
  let c := d.engine n
  if c.run.isNone then d.onEngine n (fun c => { c with st := .running, cause := 0, run := some x, runChunk := 0 })
  else d.onEngine n (fun c => { c with queue := c.queue ++ [x] })

/-- COPY_SUBMIT (R271, R273, R287): its DESC_ID is used up even where the command is void, in a checkpoint record too. -/
def execCopySubmit (x : Xact) (engine : Byte) (rsv : BitVec 24) (desc : BitVec 256) (s : State) : Out :=
  let n := engine.toNat
  .next (transact s x
    { opcode := 0x28, len := fun k => k = 36, modes := inO, lock := fun _ => false
      valid := fun sd => n < 4 && rsv = 0 && ({ id := 0, bits := desc } : Desc).valid sd.visible
      query := false, cond := fun sd => deny (submitDenied n sd)
      reply := fun sd _ => (stPending, [(sd.engine n).nextId.setWidth 32])
      modeChange := false, clear := fun d => d
      effect := fun sd d =>
        let id := (sd.engine n).nextId
        let d1 := d.onEngine n (fun c => { c with
          nextId := nextDescId c.nextId, checkpoint := c.checkpoint.map (fun r => { r with nextId := nextDescId r.nextId }) })
        Cmd.act (fun d => inO d && !submitDenied n d) (ceVoid n 0x28 id) (fun d => d.submit n { id := id, bits := desc }) d1 })

/-- Whether a cancel names the running descriptor. -/
def cancelsRun (c : Ce) (id : BitVec 16) : Bool := c.run.isSome && (id = 0xFFFF || c.runId = id)
/-- Whether a cancel names a queued descriptor. -/
def cancelsQueued (c : Ce) (id : BitVec 16) : Bool := c.queue.any (fun x => id = 0xFFFF || x.id = id)

/-- The work of COPY_CANCEL (R286). -/
def Dev.cancel (d : Dev) (n : Nat) (id : BitVec 16) : Dev :=
  let c := d.engine n
  let d1 := d.onEngine n (fun c => { c with queue := c.queue.filter (fun x => !(id = 0xFFFF || x.id = id)) })
  if cancelsRun c id then
    if c.st = .cancelling then d1
    else if c.job.isSome then d1.onEngine n (fun c => { c with st := .cancelling, cancelId := id })
    else d1.ceDrop n id
  else if cancelsQueued c id then d1.emit 0x0413 (packBytes [(1, n), (2, id.toNat)])
  else d1

/-- COPY_CANCEL (R163, R286, R287). -/
def execCopyCancel (x : Xact) (engine rsv : Byte) (descId : BitVec 16) (s : State) : Out :=
  let n := engine.toNat
  .next (transact s x
    { opcode := 0x29, len := fun k => k = 4, modes := inOR, lock := fun _ => false, valid := fun _ => n < 4 && rsv = 0
      query := false
      cond := fun sd => deny (descId ≠ 0xFFFF && !cancelsRun (sd.engine n) descId && !cancelsQueued (sd.engine n) descId)
      reply := fun sd _ => (if cancelsRun (sd.engine n) descId then stPending else stOk, [])
      modeChange := false, clear := fun d => d
      effect := fun sd d =>
        if !cancelsRun (sd.engine n) descId && !cancelsQueued (sd.engine n) descId then d else
          Cmd.act (fun d => inOR d && (cancelsRun (d.engine n) descId || cancelsQueued (d.engine n) descId)) (ceVoid n 0x29 descId)
            (fun d => d.cancel n descId) d })

/-- Whether an engine waits for COPY_RESUME (R285). -/
def resumable (c : Ce) : Bool := c.st = .stopped || c.st = .resumable

/-- COPY_RESUME (R285, R287). -/
def execCopyResume (x : Xact) (engine : Byte) (s : State) : Out :=
  let n := engine.toNat
  .next (transact s x
    { opcode := 0x2A, len := fun k => k = 1, modes := inO, lock := fun _ => false, valid := fun _ => n < 4, query := false
      cond := fun sd => deny (!resumable (sd.engine n)), reply := fun _ _ => (stPending, []), modeChange := false
      clear := fun d => d
      effect := fun sd d =>
        Cmd.act (fun d => inO d && resumable (d.engine n)) (ceVoid n 0x2A (sd.engine n).runId)
          (fun d => (d.onEngine n (fun c => { c with st := .running, cause := 0 })).emit 0x0416
            (packBytes [(1, n), (2, (d.engine n).runId.toNat)])) d })

/-! ### Chunks (R276 to R281) -/

/-- The owning port of an engine (Table 8.2). -/
def ownerOf (n : Nat) : Port := if n < 2 then .fa else .fb

/-- Rights a chunk's reads and writes need (Table 8.1): CE_R 0x10, CE_W 0x20. -/
def chunkRight (n : Nat) (write : Bool) : Byte := (if write then 0x20 else 0x10) ||| portRight (ownerOf n) write

/-- The lowest burst of a list whose governing region lacks a right. -/
def forbiddenBurst (attrs : List RegAttr) (right : Byte) (bursts : List Nat) : Option Nat :=
  (bursts.filter (fun b => !rightsIn attrs (b / 1024) right)).foldl (fun acc b => match acc with
    | none => some b
    | some a => some (min a b)) none

/-- The granules a list of bursts touches. -/
def granulesOf (bursts : List Nat) : List Nat := (bursts.map (· / 1024)).eraseDups

/-- Granules a ZERO descriptor covers whole (R275). -/
def Desc.whole (x : Desc) (g : Nat) : Bool := x.op = 5 && x.dst ≤ g * 65536 && g * 65536 + 65536 ≤ x.dst + x.len

/-- Granules that chunk `k` of a ZERO covers whole (R407). -/
def Desc.chunkWhole (x : Desc) (k g : Nat) : Bool :=
  x.op = 5 && x.dst + (x.span k).1 ≤ g * 65536 && g * 65536 + 65536 ≤ x.dst + (x.span k).2

/-- Whether chunk `k` would make a clean granule of a MUST or SHOULD region dirty (R279). -/
def Dev.chunkDirties (d : Dev) (x : Desc) (k : Nat) : Bool :=
  (granulesOf (x.writeBursts k)).any (fun g => !x.chunkWhole k g && !(d.entry g).dirty && classIn d.attrs g ≤ 1)

/-- Channels that a list of bursts touches. -/
def Dev.channelsOf (d : Dev) (bursts : List Nat) : List Nat := (bursts.map d.channelOf).eraseDups

/-- The engine stops at its running chunk (R284). -/
def Dev.ceStop (d : Dev) (n : Nat) (cause : BitVec 4) : Dev :=
  (d.onEngine n (fun c => { c with st := .stopped, cause := cause, stopChunk := c.runChunk, job := none })).emit 0x0412
    (packBytes [(1, n), (2, (d.engine n).runId.toNat), (1, cause.toNat)])

/-- The work of a chunk start: its checks and its job (R278 to R281). DESIGN CHOICE (log entry 58): where several checks fail at once
the stop is for the rights of the writes, then of the reads, then for a frozen or offline channel, then for a poisoned source. -/
def Dev.chunkStart (d : Dev) (n : Nat) (x : Desc) : Dev :=
  let k := (d.engine n).runChunk.toNat
  let rd := x.readBursts k
  let wr := x.writeBursts k
  let chans := d.channelsOf (rd ++ wr)
  if d.adm.holding && d.adm.mode = 1 && d.chunkDirties x k then d
  else if chans.any (fun c => (d.chan c).fullTrain) then d
  else match forbiddenBurst d.attrs (chunkRight n true) wr, forbiddenBurst d.attrs (chunkRight n false) rd with
    | some b, _ => (d.regionFault 2 n (b * 64)).ceStop n 1
    | none, some b => (d.regionFault 2 n (b * 64)).ceStop n 1
    | none, none =>
      if chans.any (fun c => (d.chan c).frozen || (d.chan c).offline) then d.ceStop n 2
      else if (x.op = 2 || x.op = 3) && (granulesOf rd).any d.poisoned then d.ceStop n 3
      else
        d.onEngine n (fun c => { c with
          job := some { reads := rd, writes := wr, queued := 0, buffer := [], stopped := false, tainted := false }
          jobEpoch := d.reg.epoch, jobAttrs := d.attrs })

/-- COPY_CHUNK_START: a RUNNING engine in OPERATE with no chunk in progress starts its next chunk (R270, R277). -/
def execCopyChunkStart (engine : Nat) (s : State) : Out :=
  .next (happen s (fun d =>
    let c := d.engine engine
    match c.run, c.job with
    | some x, none => if d.ctl.mode = .operate && c.st = .running && c.preempt.isNone then d.chunkStart engine x else d
    | _, _ => d))

/-- No byte of a granule is other than zero. -/
def Dev.granuleZero (d : Dev) (g : Nat) : Bool := d.mem.all (fun c => !(g * 65536 ≤ c.1 && c.1 < g * 65536 + 65536))

/-- A granule that ZERO has covered whole is a zero granule (R275); a copy of it in flight is overtaken. -/
def Dev.markZero (d : Dev) (g : Nat) : Dev :=
  let d1 := d.onEntry g (fun _ => GEntry.zero)
  { d1 with img := { d1.img with copies := d1.img.copies.map (fun (c : Copy) => if c.granule = g then { c with purpose := 6 } else c) } }

/-- Zero granules that the end of chunk `k` completes. -/
def Dev.chunkZeros (d : Dev) (x : Desc) (k : Nat) : Dev :=
  if x.op ≠ 5 then d
  else
    let (lo, hi) := x.span k
    ((granulesOf (x.writeBursts k)).filter (fun g =>
        x.whole g && x.dst + lo < g * 65536 + 65536 && g * 65536 + 65536 ≤ x.dst + hi && d.granuleZero g)).foldl
      (fun d g => d.markZero g) d

/-- The queue without an engine's entries: the chunk they belong to has ended. -/
def Dev.dropEntries (d : Dev) (n : Nat) : Dev :=
  { d with mc := d.mc.map (fun (m : Mc) => { m with queue := m.queue.filter (fun e => e.owner ≠ .engine n) }) }

/-- A ZERO chunk stopped part of the way has covered its granules only in part (R281, R407). -/
def Dev.partZero (d : Dev) (x : Desc) (k : Nat) : Dev :=
  if x.op = 5 then (granulesOf (x.writeBursts k)).foldl (fun d g => d.setDirty g) d else d

/-- A chunk ends: every write applied, or the engine stops (R277, R281, R283, R286, R288). -/
def Dev.chunkDone (d : Dev) (n : Nat) (x : Desc) (j : Job) (internal : Bool) : Dev :=
  let c := d.engine n
  let d1 :=
    if internal || j.stopped then
      let d2 := ((d.dropEntries n).partZero x c.runChunk.toNat).ceStop n (if internal then 6 else 2)
      if c.st = .cancelling then d2.ceDrop n c.cancelId else d2
    else
      let d2 := (d.chunkZeros x c.runChunk.toNat).onEngine n (fun c => { c with job := none, chunksDone := c.chunksDone + 1, runChunk := c.runChunk + 1 })
      if c.st = .cancelling then d2.ceDrop n c.cancelId
      else if x.chunks ≤ c.runChunk.toNat + 1 then
        let d3 := d2.onEngine n (fun c => { c with descDone := c.descDone + 1, lastDone := x.id })
        (if x.notify then d3.emit 0x0410 (packBytes [(1, n), (2, x.id.toNat)]) else d3).ceNext n
      else d2
  match c.preempt with
  | some cause => d1.cePreempted n cause
  | none => d1

/-- COPY_CHUNK_DONE. -/
def execCopyChunkDone (engine : Nat) (internalFault : Bool) (s : State) : Out :=
  .next (happen s (fun d =>
    let c := d.engine engine
    match c.run, c.job with
    | some x, some j =>
      if internalFault || (j.queued = 0 && (j.stopped || (j.reads.isEmpty && j.writes.isEmpty))) then d.chunkDone engine x j internalFault
      else d
    | _, _ => d))

end Sys2Proof.Machine
end

