-- ==== Sys2Proof/Machine/Sequencer.lean ====
section
/-! DEFINITION. The rail sequencer of chapter 13: loading and starting a sequence, its inputs and their priority, program steps
and the dependency table, retries, faults on running rails and the reaction of Table 13.5. -/
namespace Sys2Proof.Machine
open Sys2Proof

/-! ### Conditions -/

/-- A fault of a domain other than the fabric's holds STARTUP in its step with every PS_EN low, until every domain is back (R86).
DESIGN CHOICE (log entry 44): so does one that fell in another mode and is still down when STARTUP returns to WAIT_RAILS. -/
def Dev.startupHeld (d : Dev) : Bool := d.ctl.mode = .startup && d.ctl.domainHold

/-- A power-up attempt is in progress. -/
def Dev.attempting (d : Dev) : Bool := d.ctl.mode = .startup && d.ctl.step = .rails && d.rail.st = .running

/-- A slot counts as good in an attempt: an EXCLUDED slot does not (R484). -/
def Dev.slotGood (d : Dev) (i : Nat) : Bool := (d.slot i).st ≠ .excluded && (d.slot i).good

/-- Slots a sequence controls. -/
def Dev.seqSlots (d : Dev) : List Nat := (List.range 16).filter (fun i => (d.slot i).rail)

/-- DELAY of a dependency entry. -/
def Rail.delay (r : Rail) (s : Nat) : BitVec 16 := (r.deps.getD s 0).extractLsb' 32 16

/-- Every slot a slot needs is good (R476). -/
def Dev.needsGood (d : Dev) (i : Nat) : Bool := (maskSlots (d.rail.needs i)).all d.slotGood

/-! ### RAIL_LOAD and RAIL_RUN -/

/-- Entry size of a section (Table 5.15); 0 for sections not used. -/
def sectionSize (n : Nat) : Nat := match n with | 0 => 4 | 1 => 8 | 2 => 8 | 3 => 4 | _ => 0
/-- Entry count of a section (Table 5.15). -/
def sectionCount (n : Nat) : Nat := match n with | 0 => 1 | 1 => 16 | 2 => 16 | 3 => 64 | _ => 0

/-- A big-endian number of bytes. -/
def ofBytes (l : List Byte) : Nat := l.foldl (fun acc b => acc * 256 + b.toNat) 0

/-- The entries of a load, as numbers. -/
def entriesOf (size : Nat) (l : List Byte) : Nat → List Nat
  | 0 => []
  | n + 1 => ofBytes (l.take size) :: entriesOf size (l.drop size) n

/-- Whether an entry of a section is refused (R468, R473, R476, R477). -/
def entryBad (section_ e : Nat) : Bool :=
  match section_ with
  | 0 => headerBad (BitVec.ofNat 32 e)
  | 1 => slotEntryBad (BitVec.ofNat 64 e)
  | 2 => e % 2 ^ 32 ≠ 0
  | _ => stepBad (BitVec.ofNat 32 e)

/-- Whether a section-1 write would change USED or BLEED of a slot (R474). -/
def Dev.changesUse (d : Dev) (first : Nat) (es : List Nat) : Bool :=
  es.zipIdx.any (fun (p : Nat × Nat) =>
    let n : Slot := { Slot.reset with entry := BitVec.ofNat 64 p.1 }
    let o := d.slot (first + p.2)
    n.used ≠ o.used || n.bleed ≠ o.bleed)

/-- The state conditions of RAIL_LOAD (R474): sections 0, 2 and 3 in WAIT_RAILS only; in OPERATE section 1 keeps USED and BLEED. -/
def loadDenied (section_ first : Nat) (es : List Nat) (d : Dev) : Bool :=
  if section_ = 1 then !inW d && d.changesUse first es else !inW d

/-- One entry loaded. -/
def Dev.loadEntry (d : Dev) (section_ n e : Nat) : Dev :=
  match section_ with
  | 0 =>
    let h : Word := BitVec.ofNat 32 e
    let st := if d.rail.st = .empty || d.rail.st = .loaded then (if h.extractLsb' 24 8 = 0 then SeqState.empty else .loaded) else d.rail.st
    { d with rail := { d.rail with header := h, st := st } }
  | 1 => d.onSlot n (fun s =>
      let s1 := { s with entry := BitVec.ofNat 64 e }
      if s.st = .unused || s.st = .off then { s1 with st := if s1.used then .off else .unused } else s1)
  | 2 => { d with rail := { d.rail with deps := listUpd d.rail.deps n (fun _ => BitVec.ofNat 64 e) } }
  | _ => { d with rail := { d.rail with program := listUpd d.rail.program n (fun _ => BitVec.ofNat 32 e) } }

/-- RAIL_LOAD (R134, R173, R468, R473, R474, R477). -/
def execRailLoad (x : Xact) (section_ first count : Byte) (entries : List Byte) (s : State) : Out :=
  let n := section_.toNat
  let es := entriesOf (sectionSize n) entries count.toNat
  .next (transact s x
    { opcode := 0x48
      len := fun k => 7 ≤ k && k ≤ 251 && (3 < n || k = 3 + count.toNat * sectionSize n)
      modes := inWO, lock := fun sd => sd.eu.locked
      valid := fun _ => n ≤ 3 && 1 ≤ count.toNat && first.toNat + count.toNat ≤ sectionCount n && !es.any (entryBad n)
      query := false, cond := fun sd => deny (loadDenied n first.toNat es sd), reply := fun _ _ => (stOk, []), modeChange := false
      clear := fun d => d
      effect := fun _ d =>
        Cmd.act (fun d => inWO d && !loadDenied n first.toNat es d) (cmdVoid 0x48 x)
          (fun d => es.zipIdx.foldl (fun (d : Dev) (p : Nat × Nat) => d.loadEntry n (first.toNat + p.2) p.1) d) d })

/-- The slots of a list whose needs inside the list are not all gone, after `fuel` rounds of taking out those that are. -/
def depRest (needs : Nat → List Nat) : Nat → List Nat → List Nat
  | 0, l => l
  | fuel + 1, l => depRest needs fuel (l.filter (fun i => (needs i).any (fun j => l.contains j)))

/-- Slots a program step names: MASK, or ARG of a CHECK_JUMP on slots. -/
def stepNames (w : Word) : List Nat :=
  let op := (w.extractLsb' 28 4).toNat
  if op = 1 || op = 2 || op = 4 || op = 5 || (op = 6 && (w.extractLsb' 24 4).toNat ≤ 1) then maskSlots (w.extractLsb' 0 16) else []

/-- RAIL_RUN's refusals (R475). A jump target has 6 bits, so none is 64 or above. -/
def runDenied (d : Dev) : Bool :=
  let used := d.seqSlots
  d.rail.kind = 0 || used.any (fun i => (maskSlots (d.rail.needs i)).any (fun j => !used.contains j))
    || d.rail.program.any (fun w => (stepNames w).any (fun j => !used.contains j))
    || !(depRest (fun i => maskSlots (d.rail.needs i)) 16 used).isEmpty

/-! ### Enabling slots -/

/-- Add a slot to the enable order, in the group of this cycle (R482). -/
def orderAdd (order : List (List Nat)) (i : Nat) : List (List Nat) :=
  let o := order.map (fun g => g.filter (· ≠ i))
  match o.reverse with
  | [] => [[i]]
  | g :: t => ((g.filter (· < i) ++ i :: g.filter (i < ·)) :: t).reverse

/-- PS_EN of an idle slot goes high (Table 13.2 ENABLING). -/
def Dev.enableSlot (d : Dev) (i : Nat) : Dev :=
  let s := d.slot i
  if s.st = .off || s.st = .disabling then
    let d1 := d.onSlot i (fun x => { x with st := .enabling, enabled := true })
    { d1 with rail := { d1.rail with order := orderAdd d1.rail.order i, delaying := d1.rail.delaying.filter (· ≠ i) } }
  else d

/-- DISABLE: PS_EN low, DISABLING, out of the enable order (R478). -/
def Dev.disableSlot (d : Dev) (i : Nat) : Dev :=
  if (d.slot i).enabled then
    let d1 := d.onSlot i (fun x => { x with st := .disabling, enabled := false })
    { d1 with rail := { d1.rail with order := d1.rail.order.map (fun g => g.filter (· ≠ i)) } }
  else d

/-! ### Attempts (R475 to R484) -/

/-- An attempt fails on a slot (none: the step limit) with a snapshot cause (R478, R481, R484). -/
def Dev.attemptFail (d : Dev) (slot : Option Nat) (cause : Nat) : Dev :=
  let n := slot.getD 0
  let d1 := d.snapshot cause n
  if d1.rail.excludedRun then d1.startShut (.halt n) .retryDown
  else if d1.rail.retries.toNat < d1.rail.retryLimit then
    (d1.emit 0x0E02 (packBytes [(1, d1.rail.attempt), (1, n), (1, cause)])).startShut .retry .retryDown
  else match slot with
    | some i => d1.startShut (if (d.slot i).saveNeeded then .halt i else .excludedRun i) .retryDown
    | none => d1.startShut (.halt 0) .retryDown

/-- The mask of UP slots. -/
def Dev.upMask (d : Dev) : Nat := slotMask (fun i => (d.slot i).st = .up)

/-- An attempt succeeds: WAIT_REFCLK (Table 2.2). -/
def Dev.attemptDone (d : Dev) : Dev :=
  let d1 := d.staleTimers
  ({ d1 with
    rail := { d1.rail with st := .up, waiting := 0 }
    ctl := { d1.ctl with step := .waitRefclk } }).emit 0x0E01 d1.upMask

/-- The delays of the slots that `keep` names go on; the others are left, and an expiry of one that still waits has no effect (R476, R628). -/
def Dev.keepDelays (d : Dev) (keep : Nat → Bool) : Dev :=
  { d with rail := { d.rail with
    delaying := d.rail.delaying.filter keep
    pending := d.rail.pending.map (fun (i : SeqInput) => match i with
      | .timer 2 s => if d.rail.delaying.contains s && !keep s then .timer 9 s else .timer 2 s
      | i => i) } }

/-- The dependency table: start and drop delays, enable what is due, and end the attempt when every slot is UP (R476). -/
def Dev.depEval (d : Dev) : Dev :=
  let live := d.seqSlots.filter (fun i => (d.slot i).st ≠ .excluded)
  let d1 := live.foldl (fun (d : Dev) i =>
    let s := d.slot i
    if !(s.st = .off || s.st = .disabling) then d
    else if !d.needsGood i then d.keepDelays (· ≠ i)
    else if d.rail.delaying.contains i then d
    else if d.rail.delay i = 0 then d.enableSlot i
    else { d with rail := { d.rail with delaying := d.rail.delaying ++ [i] } }) d
  if live.all (fun i => (d1.slot i).st = .up) then d1.attemptDone else d1

/-- What a WAIT_GOOD or WAIT_BELOW waits for; an EXCLUDED slot is ignored (R484). -/
def Dev.waitMet (d : Dev) (below : Bool) (mask : BitVec 16) : Bool :=
  (maskSlots mask).all (fun i => (d.slot i).st = .excluded || (if below then (d.slot i).isOff else (d.slot i).good))

/-- Every slot the attempt has enabled is UP (Table 13.3 END). -/
def Dev.endMet (d : Dev) : Bool := d.rail.order.flatten.all (fun i => (d.slot i).st = .up)

/-- COND of a CHECK_JUMP (Table 13.3). -/
def Dev.jumpCond (d : Dev) (cond : Nat) (arg : BitVec 16) : Bool :=
  match cond with
  | 0 => (maskSlots arg).all d.slotGood
  | 1 => (maskSlots arg).any (fun i => !d.slotGood i)
  | 2 => d.egy.vFloor.toNat * 1000 ≤ d.vTerm
  | 3 => d.herd.st = arg.extractLsb' 0 4
  | _ => d.rail.retries = arg.extractLsb' 0 3

/-- The step at the program counter. -/
def Dev.seqStep (d : Dev) : Word := d.rail.program.getD d.rail.pc 0

/-- The program goes to a step. -/
def Dev.seqGoto (d : Dev) (pc : Nat) : Dev := { d with rail := { d.rail with pc := pc, waiting := 0 } }

/-- The program waits at its step. -/
def Dev.seqWait (d : Dev) (w : Nat) : Dev := { d with rail := { d.rail with waiting := w } }

/-- HERD_STEP completes at once in these cases (R515). -/
def Dev.herdStepAtOnce (d : Dev) (t : BitVec 4) : Bool := !d.herd.joined || t = 0 || 7 ≤ t.toNat || t.toNat ≤ d.herd.st.toNat

/-- Execute the step at the program counter (Table 13.3). -/
def Dev.oneStep (d0 : Dev) : Dev :=
  let d := { d0 with rail := { d0.rail with steps := d0.rail.steps + 1 } }
  let w := d.seqStep
  let mask : BitVec 16 := w.extractLsb' 0 16
  let next := d.rail.pc + 1
  match (w.extractLsb' 28 4).toNat with
  | 0 => if d.endMet then d.attemptDone else d.seqWait 15
  | 1 => ((maskSlots mask).foldl (fun (d : Dev) i => d.enableSlot i) d).seqGoto next
  | 2 => ((maskSlots mask).foldl (fun (d : Dev) i => d.disableSlot i) d).seqGoto next
  | 3 => if w.extractLsb' 0 24 = 0 then d.seqGoto next else d.seqWait 3
  | 4 => if d.waitMet false mask then d.seqGoto next else d.seqWait 4
  | 5 => if d.waitMet true mask then d.seqGoto next else d.seqWait 5
  | 6 => if d.jumpCond (w.extractLsb' 24 4).toNat mask then d.seqGoto (w.extractLsb' 16 6).toNat else d.seqGoto next
  | 7 => d.seqGoto (w.extractLsb' 16 6).toNat
  | 8 =>
    let t : BitVec 4 := w.extractLsb' 0 4
    if d.herdStepAtOnce t then
      (if d.herd.joined then d else { d with herd := { d.herd with st := t } }).seqGoto next
    else ({ d with herd := { d.herd with waitFor := some t } }).seqWait 8
  | _ => (d.emit 0x0E04 (packBytes [(1, d.rail.pc), (2, mask.toNat)])).seqGoto next

/-- Run program steps until one waits, the attempt ends, or 4 096 have been executed (R478). -/
def Dev.runSteps : Nat → Dev → Dev
  | 0, d => if d.rail.st = .running && d.rail.waiting = 0 then d.attemptFail none 5 else d
  | fuel + 1, d => if d.rail.st = .running && d.rail.waiting = 0 then Dev.runSteps fuel d.oneStep else d

/-- The program goes on. -/
def Dev.runProgram (d : Dev) : Dev := Dev.runSteps (4096 - d.rail.steps) d

/-- EXCLUDED spreads to every slot that needs an EXCLUDED slot (R484). -/
def excludeRest (d : Dev) : Nat → Dev
  | 0 => d
  | fuel + 1 =>
    excludeRest (d.seqSlots.foldl (fun (d : Dev) i =>
      if (maskSlots (d.rail.needs i)).any (fun j => (d.slot j).st = .excluded) then d.onSlot i (fun s => { s with st := .excluded }) else d) d) fuel

/-- Start an attempt (R475, R476, R481, R484): a slot whose fault failed the attempt before starts again from OFF. -/
def Dev.startAttempt (d : Dev) (n : Nat) : Dev :=
  let d1 := { d with rail := { d.rail with
    st := .running, pc := 0, waiting := 0, steps := 0, attempt := n, order := [], delaying := [], shut := none
    slots := d.rail.slots.map (fun (s : Slot) => if s.st = RailState.fault then { s with st := .off, enabled := false } else s) } }
  let d2 := d1.emit 0x0E00 n
  if d2.rail.kind = 2 then d2.runProgram
  else
    let d3 := excludeRest d2 16
    match d3.seqSlots.find? (fun i => d3.rail.excludedRun && (d3.slot i).st = .excluded && (d3.slot i).saveNeeded) with
    | some i => d3.startShut (.halt i) .retryDown
    | none => d3.depEval

/-- Start the attempt that is due, if one is: after a retry gap of 0, and the excluded run (R481, R484). -/
def Dev.settleAttempts : Nat → Dev → Dev
  | 0, d => d
  | fuel + 1, d =>
    if d.rail.waiting ≠ 16 then d
    else if d.rail.st = .retryWait then
      Dev.settleAttempts fuel (({ d with rail := { d.rail with retries := d.rail.retries + 1, waiting := 0 } }).startAttempt (d.rail.attempt + 1))
    else Dev.settleAttempts fuel (({ d with rail := { d.rail with waiting := 0 } }).startAttempt (d.rail.attempt + 1))

/-- RAIL_RUN's work: RAILS, no slot EXCLUDED, attempt 0 (R475, R484). -/
def Dev.runSequence (d : Dev) : Dev :=
  let d1 := { d with
    ctl := { d.ctl with step := .rails }
    rail := { d.rail with
      retries := 0, excludedRun := false
      slots := d.rail.slots.map (fun (s : Slot) => if s.rail then { s with st := .off, enabled := false } else s) } }
  Dev.settleAttempts 10 (d1.startAttempt 0)

/-- RAIL_RUN (R172, R475). DESIGN CHOICE (log entry 44): while a domain fault holds STARTUP in its step, an accepted RAIL_RUN has no
effect and CMD_VOID reports it. -/
def execRailRun (x : Xact) (sequence : Byte) (s : State) : Out :=
  .next (transact s x
    { opcode := 0x49, len := fun k => k = 1, modes := inWHd, lock := fun _ => false, valid := fun _ => sequence = 0, query := false
      cond := fun sd => deny (runDenied sd), reply := fun _ _ => (stPending, []), modeChange := false, clear := fun d => d
      effect := fun _ d => Cmd.act (fun d => inWHd d && !runDenied d && !d.startupHeld) (cmdVoid 0x49 x) (fun d => d.runSequence) d })

/-! ### Inputs (R479, R628) -/

/-- The place of an input in the order of R479; a timer of no slot stands on slot 16, after those of the slots. -/
def SeqInput.rank : SeqInput → Nat
  | .railFault s => s
  | .pfail _ => 100
  | .herdStep => 200
  | .timer _ s => 300 + s
  | .powerGood s _ => 400 + s

/-- The input with both merged: a qualified PFAIL_N stands over the VIN monitor (R537). -/
def SeqInput.merge : SeqInput → SeqInput → SeqInput
  | .pfail a, .pfail b => .pfail (a && b)
  | _, b => b

/-- An input that R628 already leaves without effect. -/
def SeqInput.left : SeqInput → Bool
  | .timer 9 _ => true
  | _ => false

/-- An input becomes pending; one of the same kind on the same slot is merged and counted (R479). -/
def Dev.seqInput (d : Dev) (i : SeqInput) : Dev :=
  match d.rail.pending.find? (fun j => j.rank = i.rank) with
  | some j =>
    { d with rail := { d.rail with
      coalesced := if j.left then d.rail.coalesced else satInc d.rail.coalesced
      pending := d.rail.pending.map (fun k => if k.rank = i.rank then k.merge i else k) } }
  | none => { d with rail := { d.rail with pending := d.rail.pending ++ [i] } }

/-- The input acted on next (R479). -/
def nextInput : List SeqInput → Option SeqInput
  | [] => none
  | i :: t => match nextInput t with
    | some j => if j.rank < i.rank then some j else some i
    | none => some i

/-! ### Faults on running rails (R485, R486) -/

/-- A slot faults: PS_EN low, FAULT, counted, snapshot and RAIL_FAULT (R485); in an ARMED herd it is a cut cause (R518). -/
def Dev.faultSlot (d : Dev) (i cause : Nat) : Dev :=
  let needed := (d.slot i).saveNeeded
  let d1 := d.onSlot i (fun s => { s with st := .fault, enabled := false, faultCount := satInc s.faultCount })
  let d2 := ({ d1 with rail := { d1.rail with faultValid := true, faultRail := BitVec.ofNat 4 i } }).snapshot (if cause < 3 then 1 else 2) i
  let d3 := d2.emit 0x0E05 (packBytes [(1, i), (1, cause), (1, d.ctl.mode.code)])
  if d3.herdArmed then (if needed then d3.herdEnterCut true 1 else d3.herdCut true 1) else d3

/-- The steps of STARTUP in which R20 applies (Table 2.3). -/
def Dev.startupRunning (d : Dev) : Bool :=
  d.ctl.mode = .startup && (d.ctl.step = .waitRefclk || d.ctl.step = .dram || d.ctl.step = .image || d.ctl.step = .done)

/-- The reaction to a rail fault or needed-domain fault outside an attempt (Table 13.5, R86). -/
def Dev.railReaction (d : Dev) (needed : Bool) (kind code : Nat) : Dev :=
  if d.shutting then d
  else match d.ctl.mode with
    | .startup => if d.startupRunning then d.beginShutdown 2 else d
    | .save => if needed then d.neededFaultInSave kind code else d
    | .unpowered => d
    | _ => d.powerTrigger needed 1

/-- A PFAIL input acted on (R20, R479, R537, R628). -/
def Dev.pfailReaction (d : Dev) (vin : Bool) : Dev :=
  if d.shutting then d
  else match d.ctl.mode with
    | .startup => if d.startupRunning then d.beginShutdown 2 else d
    | .save => d
    | .unpowered => d
    | _ => d.powerTrigger false (if vin then 3 else 2)

/-- The shutdown goes on past the slot it waits for (R482). -/
def Dev.shutAdvance (d : Dev) (i : Nat) (timeout : Bool) : Dev :=
  match d.rail.shut with
  | some s =>
    if s.left.head? = some i then
      d.shutNext { s with left := [], timeouts := s.timeouts + (if timeout then 1 else 0) } s.left.tail
    else d
  | none => d

/-- The step timeout of a step that has been left (R628). -/
def Dev.staleStep (d : Dev) : Dev :=
  { d with rail := { d.rail with pending := d.rail.pending.map (fun (i : SeqInput) => match i with
    | .timer 0 s => .timer 9 s
    | i => i) } }

/-- The wait of the program or table is looked at again (R476, R477). -/
def Dev.seqProgress (d : Dev) : Dev :=
  if !d.attempting then d
  else if d.rail.kind = 1 then d.depEval
  else
    let mask : BitVec 16 := d.seqStep.extractLsb' 0 16
    if (d.rail.waiting = 4 && d.waitMet false mask) || (d.rail.waiting = 5 && d.waitMet true mask) then
      (d.staleStep.seqGoto (d.rail.pc + 1)).runProgram
    else if d.rail.waiting = 15 && d.endMet then d.attemptDone
    else d
/-- The slot that fails a WAIT_GOOD or WAIT_BELOW: the lowest of its mask that is not good, or not off. -/
def Dev.waitFailSlot (d : Dev) : Option Nat :=
  (maskSlots (d.seqStep.extractLsb' 0 16)).find? (fun i =>
    (d.slot i).st ≠ .excluded && !(if d.rail.waiting = 5 then (d.slot i).isOff else (d.slot i).good))

/-- A timer input acted on (R476 to R482). -/
def Dev.timerAct (d : Dev) (kind i : Nat) : Dev :=
  match kind with
  | 0 => if d.attempting && (d.rail.waiting = 4 || d.rail.waiting = 5) then d.attemptFail d.waitFailSlot 3 else d
  | 1 => if d.attempting && d.rail.waiting = 3 then (d.seqGoto (d.rail.pc + 1)).runProgram else d
  | 2 => if d.attempting && d.rail.delaying.contains i && d.needsGood i then d.enableSlot i else d
  | 3 =>
    if (d.slot i).st = .enabling then
      let d1 := d.faultSlot i 3
      if d.attempting then d1.attemptFail (some i) 2 else d1
    else d
  | 4 =>
    (match d.rail.shut with
      | some s =>
        if s.left.head? = some i && (d.slot i).st = .disabling then
          ((d.emit 0x0E06 i).snapshot 4 i).shutAdvance i true
        else d
      | none => d)
  | 5 =>
    if d.rail.st = .retryWait then
      ({ d with rail := { d.rail with retries := d.rail.retries + 1, waiting := 0 } }).startAttempt (d.rail.attempt + 1)
    else d
  | _ => d

/-- A slot becoming good or off, acted on. -/
def Dev.powerGoodAct (d : Dev) (i : Nat) : Dev :=
  let s := d.slot i
  if s.st = .enabling && s.good then (d.onSlot i (fun x => { x with st := .up })).seqProgress
  else if s.st = .disabling && s.isOff then
    ((d.onSlot i (fun x => { x with st := .off })).shutAdvance i false).seqProgress
  else if s.st = .up then d.seqProgress
  else d

/-- One input acted on (R479, R628). -/
def Dev.actOn (d : Dev) : SeqInput → Dev
  | .railFault i =>
    if d.attempting then d.attemptFail (some i) 1
    else if d.rail.st = .retryDown || d.rail.st = .retryWait then d
    else d.railReaction (d.slot i).saveNeeded 0 i
  | .pfail vin => d.pfailReaction vin
  | .herdStep =>
    if d.attempting && d.rail.waiting = 8 then
      (({ d with herd := { d.herd with waitFor := none } }).seqGoto (d.rail.pc + 1)).runProgram
    else d
  | .timer k i => d.timerAct k i
  | .powerGood i _ => d.powerGoodAct i

/-- An evaluation of the sequencer: one pending input, in the order of R479; slots enabled in it share a cycle (R482). -/
def Dev.evaluate (d : Dev) : Dev :=
  if d.startupHeld then d
  else match nextInput d.rail.pending with
    | none => d
    | some i =>
      let d1 := { d with rail := { d.rail with
        pending := d.rail.pending.filter (fun j => j.rank ≠ i.rank), order := d.rail.order ++ [[]] } }
      Dev.settleAttempts 10 (d1.actOn i)

/-- SEQ_EVALUATE. -/
def execSeqEvaluate (s : State) : Out := .next (happen s Dev.evaluate)

/-! ### Rows of inputs -/

/-- RAIL_GOOD: a slot whose readings are good becomes a power-good input (R471, R479). -/
def execRailGood (slot : Nat) (s : State) : Out :=
  .next (happen s (fun d =>
    let d1 := d.onSlot slot (fun x => if x.pgUsed then { x with pg := true } else x)
    if (d1.slot slot).good then d1.seqInput (.powerGood slot false) else d))

/-- RAIL_OFF: a slot that reads off becomes an input of the power-good kind (R471, R479, R482). -/
def execRailOff (slot : Nat) (s : State) : Out :=
  .next (happen s (fun d =>
    let d1 := d.onSlot slot (fun x => if x.vsUsed then x else { x with pg := false })
    if (d1.slot slot).rail && (d1.slot slot).isOff then d1.seqInput (.powerGood slot true) else d))

/-- RAIL_OFF_TIMEOUT: the slot a shutdown waits for is not off within OFF_TIMEOUT, a timer input (R482). -/
def execRailOffTimeout (slot : Nat) (s : State) : Out :=
  .next (happen s (fun d =>
    match d.rail.shut with
    | some k => if k.left.head? = some slot then d.seqInput (.timer 4 slot) else d
    | none => d))

/-- RAIL_UP_TIMEOUT: an ENABLING slot is not good within UP_TIMEOUT, a timer input (R478, R485). -/
def execRailUpTimeout (slot : Nat) (s : State) : Out :=
  .next (happen s (fun d => if (d.slot slot).st = .enabling then d.seqInput (.timer 3 slot) else d))

/-- SEQ_STEP_TIMEOUT: a WAIT_GOOD or WAIT_BELOW times out (R477). -/
def execSeqStepTimeout (s : State) : Out :=
  .next (happen s (fun d => if d.attempting && (d.rail.waiting = 4 || d.rail.waiting = 5) then d.seqInput (.timer 0 16) else d))

/-- SEQ_WAIT_TIME_EXPIRE: the time of a WAIT_TIME has passed (R477). -/
def execSeqWaitTimeExpire (s : State) : Out :=
  .next (happen s (fun d => if d.attempting && d.rail.waiting = 3 then d.seqInput (.timer 1 16) else d))

/-- SEQ_DELAY_EXPIRE: DELAY of a slot has elapsed (R476). -/
def execSeqDelayExpire (slot : Nat) (s : State) : Out :=
  .next (happen s (fun d => if d.attempting && d.rail.delaying.contains slot then d.seqInput (.timer 2 slot) else d))

/-- RETRY_GAP_EXPIRE: all rails have stayed off for RETRY_GAP (R481). -/
def execRetryGapExpire (s : State) : Out :=
  .next (happen s (fun d => if d.rail.st = .retryWait then d.seqInput (.timer 5 16) else d))

/-- RAIL_FAULT: an UP slot qualifies a fault with cause 0 to 2 (R485); the reaction is the sequencer's (Table 13.5). -/
def execRailFault (slot cause : Nat) (s : State) : Out :=
  .next (happen s (fun d =>
    let k := d.slot slot
    if k.st = .up && (if cause = 0 then k.pgUsed else k.vsUsed) && cause < 3 then
      let d1 := if cause = 0 then d.onSlot slot (fun x => { x with pg := false }) else d
      (d1.faultSlot slot cause).seqInput (.railFault slot)
    else d))

/-- PFAIL_N_QUALIFIED: PFAIL_N has been low for 200 HOSC cycles (R536): a PFAIL input, and a cut cause in an ARMED herd (R518). -/
def execPfailNQualified (s : State) : Out :=
  .next (happenAny s (fun d =>
    let d1 := { d with ctl := { d.ctl with pfailLow := true, powerGoodSince := none } }
    if d1.alive then
      let d2 := d1.seqInput (.pfail false)
      if d2.herdArmed then d2.herdCut true 2 else d2
    else d1))

/-- PFAIL_N_RELEASE: PFAIL_N is high; with the VIN monitor good the time of R42 starts. -/
def execPfailNRelease (s : State) : Out :=
  .next (happenAny s (fun d => { d with ctl := { d.ctl with
    pfailLow := false
    powerGoodSince := if d.rail.vinFired then none else match d.ctl.powerGoodSince with
      | some t => some t
      | none => some d.ctl.uptimeMs } }))

end Sys2Proof.Machine
end

