-- ==== Sys2Proof/Machine/Energy.lean ====
section
/-! DEFINITION. The ADC scan, the VIN monitor, the charger, the energy test, E_AVAIL and admission's limits (chapter 13). -/
namespace Sys2Proof.Machine
open Sys2Proof

/-! ### The ADC scan (R469) -/

/-- The last `n` values of a list with one more. -/
def pushLast {α : Type} (n : Nat) (l : List α) (x : α) : List α := (l ++ [x]).drop (l.length + 1 - n)

/-- The codes and levels of a scan. -/
def Dev.readScan (d : Dev) (k : AdcScan) : Dev :=
  let d1 := { d with
    rail := { d.rail with slots := d.rail.slots.zipIdx.map (fun (p : Slot × Nat) =>
      { p.1 with vs := k.vs.getD p.2 0, pg := k.pg.getLsbD p.2 }) }
    adc := { d.adc with vin := k.vin, vstore := k.vstore, ichg := k.ichg }
    therm := { d.therm with
      scans := pushLast 100 d.therm.scans k.die, tdRaw := k.td } }
  { d1 with adc := { d1.adc with vocs := pushLast 100 d1.adc.vocs d1.vOc } }

/-- The VIN monitor after a scan (R487): fires on the second scan below VIN_MIN, good again at 1.03 × VIN_MIN. -/
def Dev.vinMonitor (d : Dev) : Dev :=
  let lim := d.rail.vinMin * 100000
  let v := d.adc.vin.toNat * d.egy.vinScale.toNat
  if d.rail.vinMin = 0 || d.egy.vinScale = 0 then { d with rail := { d.rail with vinFired := false, vinBelow := 0 } }
  else if d.rail.vinFired then
    (if lim * 103 ≤ v * 100 then ({ d with rail := { d.rail with vinFired := false, vinBelow := 0 } }).emit 0x0E16 d.adc.vin.toNat else d)
  else if lim ≤ v then { d with rail := { d.rail with vinBelow := 0 } }
  else if d.rail.vinBelow = 0 then { d with rail := { d.rail with vinBelow := 1 } }
  else
    let d1 := (({ d with rail := { d.rail with vinFired := true, vinBelow := 0 } }).emit 0x0E15 d.adc.vin.toNat).snapshot 9 0
    let d2 := d1.seqInput (.pfail true)
    if d2.herdArmed then d2.herdCut true 3 else d2

/-- Since when PFAIL_N and the VIN monitor have both been good (R42). -/
def Dev.powerGood (d : Dev) : Dev :=
  { d with ctl := { d.ctl with powerGoodSince :=
    if d.ctl.pfailLow || d.rail.vinFired then none else some (d.ctl.powerGoodSince.getD d.ctl.uptimeMs) } }

/-- The charger enters FAULT, or a retry fails (R493). -/
def Dev.chargerFault (d : Dev) (reason : Nat) : Dev :=
  if d.egy.charger = .fault then ({ d with egy := { d.egy with retrying := false, overScans := 0 } }).chargerEval
  else
    let d1 := ({ d with egy := { d.egy with charger := .fault, retrying := false, overScans := 0 } }).chargerEval
    (d1.snapshot 6 0).emit 0x0E10 reason

/-- A retry passes (R493). -/
def Dev.chargerOk (d : Dev) : Dev :=
  (({ d with egy := { d.egy with charger := .charging, retrying := false } }).chargerEval).emit 0x0E11 0

/-- The charger's tests on a scan: over-voltage twice, and the end of a retry at V_FULL_MV (R493); then R491. -/
def Dev.chargerScan (d : Dev) : Dev :=
  let d0 := if d.egy.chgEn then { d with egy := { d.egy with winSum := d.egy.winSum + d.store5, winScans := d.egy.winScans + 1 } } else d
  if d0.unconfigured then d0.chargerEval
  else if d0.egy.vFull.toNat * 103000 < d0.vTerm * 100 then
    (if d0.egy.overScans = 0 || (d0.egy.charger = .fault && !d0.egy.retrying) then
        ({ d0 with egy := { d0.egy with overScans := 1 } }).chargerEval
      else d0.chargerFault 1)
  else
    let d1 := { d0 with egy := { d0.egy with overScans := 0 } }
    if d1.egy.retrying && d1.egy.vFull.toNat * 1000 ≤ d1.vTerm then d1.chargerOk else d1.chargerEval

/-- A BLEED slot is fitted. -/
def Dev.hasBleed (d : Dev) : Bool := d.rail.slots.any (fun s => s.used && s.bleed)

/-- The test window W in µV: 5 % of V_FULL_MV with a BLEED slot, else 1 % (R494). -/
def Dev.testWindow (d : Dev) : Nat := d.egy.vFull.toNat * 10 * (if d.hasBleed then 5 else 1)

/-- A test's sums over a scan (R494). -/
def Dev.testScan (d : Dev) : Dev :=
  match d.egy.test with
  | some t =>
    if t.step = 2 then
      let lo := d.egy.vFull.toNat * 1000 - d.testWindow * 9 / 10
      let hi := d.egy.vFull.toNat * 1000 - d.testWindow / 10
      let inside := lo ≤ d.vOc && d.vOc ≤ hi
      { d with egy := { d.egy with test := some { t with
        sum := t.sum + d.store5, scans := t.scans + 1, window := if inside then t.window + d.store5 else t.window
        edgeV := d.vTerm, edgeI := d.store5 } } }
    else d
  | none => d

/-- A calibration's mean current over the granule phase (R500). -/
def Dev.calScan (d : Dev) : Dev :=
  if d.egy.calRunning && d.ctl.mode = .save && d.sav.phase = 3 then
    { d with egy := { d.egy with calSum := d.egy.calSum + d.store5, calScans := d.egy.calScans + 1 } }
  else d

/-- Dependency delays of slots whose needs are no longer good are dropped: they start anew (R476). -/
def Dev.dropDelays (d : Dev) : Dev := d.keepDelays d.needsGood

/-- ADC_SCAN. -/
def execAdcScan (scan : AdcScan) (s : State) : Out :=
  .next (happen s (fun d => (d.readScan scan).vinMonitor.powerGood.testScan.chargerScan.calScan.dropDelays))

/-! ### Every 1 ms (R497, R501) -/

/-- The trickle token bucket over 1 ms (R415): 0.75 × ALLOW_DAY_MIB × 16 granules a day, at most an hour of it. -/
def Img.fillTokens (i : Img) : Img :=
  if i.throttled then i else { i with tokens := min (i.tokens + 12 * i.allowDayMib.toNat) (12 * i.allowDayMib.toNat * 3600000) }

/-- E_AVAIL_UPDATE: E_AVAIL, SAVE_BUDGET and ADMIT_LIMIT, with the millisecond counters. -/
def execEAvailUpdate (s : State) : Out :=
  .next (happen s (fun d =>
    let e := d.eAvailNow
    let b := budgetOf e d.egy.costFixed.toNat d.egy.costPj.toNat
    { d with
      ctl := { d.ctl with uptimeMs := d.ctl.uptimeMs + 1 }
      egy := { d.egy with eAvail := satBits 32 e, saveBudget := satBits 32 b, testAgeMs := d.egy.testAgeMs + 1 }
      img := d.img.fillTokens
      adm := { d.adm with limit := satBits 32 (min b d.flashBound * d.adm.pct.toNat / 100) } }))

/-! ### The charger's windows (R493) -/

/-- CHARGER_WINDOW: a window of 1 s of CHG_EN high ends. -/
def execChargerWindow (s : State) : Out :=
  .next (happen s (fun d =>
    if !d.egy.chgEn then d
    else
      let sum := if d.egy.winScans = 0 then d.store5 else d.egy.winSum
      let low := sum < 40 * (max 1 d.egy.winScans : Nat) && d.vOc * 100 < d.egy.vFull.toNat * 99000
      let d1 := { d with egy := { d.egy with winSum := 0, winScans := 0 } }
      if low then d1.chargerFault 0 else if d1.egy.retrying then d1.chargerOk else d1))

/-- CHARGER_RETRY: 60 s after a fault or a failed retry, CHG_EN goes high at ISET_MAX. -/
def execChargerRetry (s : State) : Out :=
  .next (happen s (fun d =>
    if d.egy.charger = .fault && !d.egy.retrying && !d.chargerBlocked && !d.unconfigured then
      ({ d with egy := { d.egy with retrying := true, overScans := 0 } }).chargerEval
    else d))

/-! ### The capacitance and ESR test (R494 to R499) -/

/-- BLEED slots on or off. -/
def Dev.setBleed (d : Dev) (on : Bool) : Dev :=
  { d with rail := { d.rail with slots := d.rail.slots.map (fun (s : Slot) =>
    if s.used && s.bleed then { s with st := if on then .bleeding else .off, enabled := on } else s) } }

/-- Step 2 begins. -/
def Dev.testCharge (d : Dev) (t : ETest) : Dev :=
  (({ d with egy := { d.egy with test := some { t with step := 2, sum := 0, window := 0, scans := 0 } } }).setBleed false).chargerEval

/-- A test starts: at step 2 when the store is below V_FULL_MV - 0.9 W, else with the lowering of step 1 (R494). -/
def Dev.testStart (d : Dev) (scheduled : Bool) : Dev :=
  let t : ETest := { step := 1, scheduled := scheduled, sum := 0, window := 0, scans := 0, edgeV := 0, edgeI := 0 }
  if d.vOc < d.egy.vFull.toNat * 1000 - d.testWindow * 9 / 10 then d.testCharge t
  else (({ d with egy := { d.egy with test := some t } }).setBleed d.hasBleed).chargerEval

/-- A test fails with a result (R495). -/
def Dev.testFail (d : Dev) (result : Nat) : Dev :=
  let d1 := (({ d with egy := { d.egy with test := none, fails := satInc d.egy.fails } }).setBleed false).chargerEval
  (d1.snapshot 7 0).emit 0x0E12 (packBytes [(1, 0), (1, result)])

/-- What follows a successful test (R499, Table 16.2): E_FULL is compared with the fixed cost and with the visible granules. -/
def Dev.afterTest (d : Dev) (scheduled : Bool) : Dev :=
  let e := d.eFull
  if e ≤ d.egy.costFixed.toNat then ((d.emit 0x0E14 e).snapshot 7 0).latchCause 2
  else
    let d1 := if scheduled then d.clearCause 2 else d
    let b := budgetOf e d.egy.costFixed.toNat d.egy.costPj.toNat
    if b < d.dcfg.granules.toNat then d1.emit 0x0E13 b else d1

/-- A quotient whose rounding the spec does not state: up or down, by a free value (log entry 21). -/
def Dev.rounded (d : Dev) (n m : Nat) : Nat := n / m + (if n % m = 0 then 0 else d.fresh % 2)

/-- CAP_MF in mF: the charge between the two voltage points over 0.8 W (R494); free when it is not positive. -/
def Dev.capOf (d : Dev) (t : ETest) : Nat :=
  -- window in 0.5 mA × 10 µs = 5 × 10^-9 C; 0.8 W in µV
  if t.window ≤ 0 || d.testWindow = 0 then d.fresh else d.rounded (t.window.toNat * 50) (8 * d.testWindow)

/-- ESR in 0.1 mΩ: the fall of the terminal voltage at the edge over the current before it (R494); free when not defined. -/
def Dev.esrOf (d : Dev) (t : ETest) : Nat :=
  if t.edgeI ≤ 0 || t.edgeV < d.vTerm then d.fresh else d.rounded ((t.edgeV - d.vTerm) * 20) t.edgeI.toNat

/-- A step of a test reaches its voltage point (R494). -/
def Dev.testStep (d : Dev) : Dev :=
  match d.egy.test with
  | none => d
  | some t =>
    if t.step = 1 then d.testCharge t
    else if t.step = 2 then
      (if t.sum < 40 * t.scans || t.scans = 0 then d.testFail 3
        else ({ d with egy := { d.egy with test := some { t with step := 3 } } }).chargerEval)
    else
      let d1 := ({ d.used with egy := { d.egy with
        test := none, capMf := satBits 32 (d.capOf t), esr := satBits 16 (d.esrOf t), testAgeMs := 0, tests := satInc d.egy.tests } }).chargerEval
      (d1.emit 0x0E12 (packBytes [(1, 0), (1, 0)])).afterTest t.scheduled

/-- ENERGY_TEST_START: an instance of task 3 starts, unless a test runs or the charger is in FAULT or UNCONFIGURED (R494, R495). -/
def execEnergyTestStart (s : State) : Out :=
  .next (happen s (fun d =>
    if (d.ctl.mode = .operate || d.ctl.mode = .safehold) && d.egy.test.isNone && !d.unconfigured && d.egy.charger ≠ .fault
        && !d.chargerBlocked && (d.task 9).anchor.isSome then
      (d.taskStart 9).testStart true
    else d))

/-- ENERGY_TEST_STEP_DONE. -/
def execEnergyTestStepDone (s : State) : Out := .next (happen s Dev.testStep)

/-- ENERGY_TEST_TIMEOUT: step 1 has lasted 1 h, or step 2 2 h (R495). -/
def execEnergyTestTimeout (s : State) : Out :=
  .next (happen s (fun d => match d.egy.test with
    | some t => if t.step = 1 then d.testFail 1 else if t.step = 2 then d.testFail 2 else d
    | none => d))

/-! ### ENERGY_TEST (R496, R500) -/

/-- KIND 0's refusals: FAULT_ENERGY while unable, then DENIED_STATE (R496, R498, R660). -/
def energyDenied (running : Dev → Bool) (d : Dev) : Option Byte :=
  if d.unable then some stFaultEnergy else deny (running d)

/-- ENERGY_TEST with a KIND. -/
def energyCmd (x : Xact) (kind : Byte) : Cmd :=
  let running := fun (d : Dev) => if kind = 0 then d.egy.test.isSome else d.egy.calRunning
  { opcode := 0x4B, len := fun k => k = 1, modes := inO, lock := fun _ => false, valid := fun _ => kind.toNat ≤ 1, query := false
    cond := energyDenied running, reply := fun _ _ => (stPending, []), modeChange := false, clear := fun d => d
    effect := fun _ d => Cmd.act (fun d => inO d && (energyDenied running d).isNone) (cmdVoid 0x4B x)
      (fun d => if kind = 0 then d.testStart false else { d with egy := { d.egy with calRunning := true } }) d }

/-- ENERGY_TEST, KIND 0. -/
def execEnergyTestCapacitance (x : Xact) (s : State) : Out := .next (transact s x (energyCmd x 0))

/-- ENERGY_TEST, KIND 1; any other KIND is refused. -/
def execEnergyTestCalibrate (x : Xact) (kind : Byte) (s : State) : Out := .next (transact s x (energyCmd x kind))

end Sys2Proof.Machine
end

