-- ==== Sys2Proof/Machine/Flash.lean ====
section
/-! DEFINITION. What flash operations report, the rows that start work on flash, and the phases of SAVE that they drive
(chapters 11 and 15). -/
namespace Sys2Proof.Machine
open Sys2Proof

/-! ### Phases 0 and 1 of SAVE (R541, R542, R559) -/

/-- The drain is complete (R541): no older work is live, no verdict is pending, and begun restores are finished (R580). -/
def Dev.drainedAll (d : Dev) : Bool :=
  d.oldestLive = d.reg.epoch && d.liveEpochs.isEmpty && d.rst.verdicts.isEmpty && d.rst.flight.isEmpty

/-- Phase 1 begins (R542): every owed unit is issued and every rank put into self-refresh; with CLK_SRC = 0 the switch to HOSC starts,
after a running switch to REFCLK has completed (R33); with CLK_SRC = 1 the ports go to DISABLED at once (R243). -/
def Dev.rateBegin (d : Dev) : Dev :=
  let d1 := d.allSleep
  if d1.clk.switching then d1 else if d1.clk.src then d1.savePortsDown else d1.clkSwitch true

/-- SAVE_DRAIN_DONE: phase 1 begins, with the save set of R544; a commit whose header passed in SAFEHOLD takes place first (R406). -/
def execSaveDrainDone (s : State) : Out :=
  .next (happen s (fun d =>
    if d.saving && d.sav.phase = 0 && d.drainedAll then
      let continued := (d.img.copies.filter (fun c => c.purpose = 1 && !(d.entry c.granule).dirty)).length
      (({ d.commitPassed with sav := { d.commitPassed.sav with setSize := d.dirtyTotal + continued } }).savePhase 1).rateBegin
    else d))

/-- Phase 1 ends (R542): the channels are at 3200 MT/s on point 1 and out of self-refresh, the NAND channels at their SAVE rate; a
skipped SAVE ends here (R559). -/
def Dev.rateEnd (d : Dev) : Dev :=
  let d0 := (d.onPoint1 true).allWake
  let d1 := { d0 with sav := { d0.sav with nandSlow := true } }
  if d.sav.skip then
    let d2 := (d1.emit 0x0117 d.img.state.toNat).calEnd
    ({ d2 with sav := { d2.sav with resume := some d.canResume } }).savePhase7
  else d1.savePhase 2

/-- SAVE_RATE_DONE: the data plane runs from HOSC. -/
def execSaveRateDone (s : State) : Out :=
  .next (happen s (fun d => if d.saving && d.sav.phase = 1 && d.clk.src && !d.clk.switching then d.rateEnd else d))

/-- SAVE_ABANDON_WAIT_DONE (R556). -/
def execSaveAbandonWaitDone (s : State) : Out :=
  .next (happen s (fun d => if d.ctl.mode = .save && d.rail.abandonWait then d.abandonEnd else d))

/-! ### Programs (R403 to R405, R409, R543, R552, R553) -/

/-- The pages a record set fills in one half of the record area: the spec does not give the number, only the half's size
(R397, R414; log entry 4). -/
def Dev.recordPages (d : Dev) : Nat := 1 + d.fresh % (max 1 (8 * groupSlots d.img.geom))

/-- The reservation header has passed on a ring: it goes to the secondary ring too, and then copy generations may be given (R404). -/
def Dev.reservePassed (d : Dev) (primary : Bool) (h : Header) : Dev :=
  if primary && !d.ringLost false then d.startHeader false (.reserve false h)
  else ({ d with img := { d.img with wroteHeader := true, seqReserve := h.seqReserve } }).programAll

/-- A header of the commit in progress has passed: the first makes the commit, which in SAFEHOLD waits for the release (R406); the second
completes it. In an abandoned SAVE it changes nothing (R556). -/
def Dev.headerPassed (d : Dev) (h : Header) : Dev :=
  match d.img.commit with
  | some c =>
    if d.sav.abandoned then d
    else if c.phase = 2 then
      (if d.ctl.mode = .safehold then { d with img := { d.img with commit := some { c with phase := 4, passed := some h } } }
       else d.commitMade c h)
    else if c.phase = 3 then d.commitOver c
    else d
  | none => d

/-- The program of a ring's page has reported, unless the page still waits for the erase of its block group. A program that failed is
repeated at the next page of the ring (R543; log entry 70). -/
def Dev.ringDone (d : Dev) (id : Nat) (primary : Bool) (h : Header) (op : FlashOp) (pass : Bool) : Dev :=
  if d.ringErasing primary then d
  else
    let d1 := ((d.programmed 1).endOp id).ringWritten primary h pass
    if !pass then (if d1.sav.abandoned then d1 else d1.startHeader primary op)
    else match op with
      | .reserve _ _ => d1.reservePassed primary h
      | .header _ _ => d1.headerPassed h
      | _ => d1

/-- Map pages of the commit in progress take other places. -/
def Dev.moveMap (d : Dev) (move : Word → Word) : Dev :=
  { d with img := { d.img with commit := d.img.commit.map (fun c => { c with dir := c.dir.map move, keeperPage := move c.keeperPage }) } }

/-- Pages with the copy generations from `first` on. -/
def freshPages (first : Nat) (l : List FPage) : List FPage := l.zipIdx.map (fun p => { p.1 with copyGen := first + p.2 })

/-- Another slot takes the pages of a slot of map pages, each with the next copy generation (R404). -/
def Dev.mapElsewhere (d : Dev) (a : Word) (pages : List FPage) : Dev :=
  match d.metaSlot with
  | some b =>
    let move := fun (p : Word) => if slotOf p = a then b ||| (p &&& 3) else p
    let d1 := { d with img := { d.img with copyGen := d.img.copyGen + pages.length } }
    (d1.moveMap move).startOp (.mapSlot b (freshPages (d.img.copyGen + 1) pages))
  | none => d.startOp (.mapSlot a pages)

/-- A slot of map pages has reported: it holds them, or its block group is retired and another slot takes them. -/
def Dev.mapSlotDone (d : Dev) (id : Nat) (a : Word) (pages : List FPage) (pass : Bool) : Dev :=
  let d0 := (d.programmed 4).endOp id
  if pass then
    let held : FSlot := { addr := a, kind := 2, index := 0, copyGen := (pages.headD { kind := 2, index := 0, copyGen := 0, data := [] }).copyGen
                          keyGen := d.cip.imkGen, taint := false, data := [], parts := pages, key := sealKey d.cip.imk }
    { d0 with img := { d0.img with slots := d0.img.slots ++ [held] } }
  else (d0.retire (groupOf d.img.geom a) 0).mapElsewhere a pages

/-- The record set has been written into its half (R399), or is written again; in SAVE its end is the end of phase 6. -/
def Dev.recordsDone (d : Dev) (id : Nat) (r : RecordSet) (pass : Bool) : Dev :=
  let d1 := (d.programmed d.recordPages).used
  if pass then
    let d2 := d1.endOp id
    let d3 := { d2 with img := { d2.img with records := d2.img.records.set d2.recordHalf (some r) } }
    if d.saving && d.sav.phase = 6 then d3.savePhase7 else d3
  else d1

/-- The program of an operation that is no granule copy has reported. -/
def Dev.opDone (d : Dev) (id : Nat) (op : FlashOp) (pass : Bool) : Dev :=
  match op with
  | .marker primary h => d.ringDone id primary h op pass
  | .reserve primary h => d.ringDone id primary h op pass
  | .header primary h => d.ringDone id primary h op pass
  | .mapSlot a pages => (d.mapSlotDone id a pages pass).commitStep
  | .records r => d.recordsDone id r pass
  | .restoreRead _ _ => d
  | .scrubRead _ => d
  | .relocRead _ => d
  | .goatRead _ _ => d

/-- The working entry of a granule names a copy under an old key (R450). -/
def Dev.oldKeyed (d : Dev) (g : Nat) : Bool := (d.entry g).st = 1 && d.slotKey (d.entry g).slot ≠ d.cip.imkGen

/-- The image re-key's boundary passes a granule (R450, R451): a commit at each multiple of 65 536. -/
def Dev.goatAdvance (d : Dev) : Dev :=
  let b := d.cip.imageBoundary + 1
  let d1 := { d with cip := { d.cip with imageBoundary := b } }
  if b.toNat % 65536 = 0 && b.toNat < d.dcfg.granules.toNat then d1.askCommit 4 else d1

/-- A Goat copy has ended, well or not; the boundary passes its granule when the entry is under the new key. -/
def Dev.goatCopyEnd (d : Dev) (c : Copy) (pass : Bool) : Dev :=
  if (c.purpose = 3 || c.purpose = 4) && pass && d.cip.imageBoundary.toNat = c.granule && !d.oldKeyed c.granule then d.goatAdvance else d

/-- FLASH_PROGRAM_DONE: the operation or copy `op` reports its status. -/
def Dev.programDone (d : Dev) (op : Nat) (pass : Bool) : Dev :=
  match d.img.copies.find? (fun c => c.id = op && c.job.isNone && c.copyGen ≠ 0) with
  | some c =>
    let d1 := d.programmed 4
    let d2 := if pass then d1.copyPass c else if d.sav.abandoned then d1.dropCopy c else d1.copyFail c
    (d2.goatCopyEnd c pass).commitStep
  | none =>
    match d.img.ops.find? (fun o => o.1 = op) with
    | some o => d.opDone op o.2 pass
    | none => d

/-- FLASH_PROGRAM_DONE. -/
def execFlashProgramDone (op : Nat) (pass : Bool) (s : State) : Out := .next (happen s (fun d => d.programDone op pass))

/-! ### Erases (R397, R417) -/

/-- PE_MAX and PE_AVG from the block groups' counts. -/
def Dev.wearCounts (d : Dev) : Dev :=
  let g := d.img.geom
  let groups := (List.range 32).foldl (fun acc i => acc + (if d.img.targetMap.getLsbD i then g.luns * g.blockGroups else 0)) 0
  let sum := (d.img.blockCycles.map (·.2)).foldl (· + ·) 0
  { d with img := { d.img with
      peMax := satBits 16 ((d.img.blockCycles.map (·.2)).foldl max 0)
      peAvg := satBits 16 (if groups = 0 then 0 else sum / groups) } }

/-- One more program/erase cycle of a block group. -/
def bumpCycles (l : List (Word × Nat)) (group : Word) : List (Word × Nat) :=
  if l.any (fun p => p.1 = group) then l.map (fun p => if p.1 = group then (p.1, p.2 + 1) else p) else l ++ [(group, 1)]

/-- The ring that a block group belongs to, and its place there. -/
def Dev.ringGroup (d : Dev) (group : Word) : Option (Bool × Nat) :=
  match (d.ringGroups true).idxOf? group, (d.ringGroups false).idxOf? group with
  | some k, _ => some (true, k)
  | none, some k => some (false, k)
  | none, none => none

/-- A block group of a ring is blank: its pages hold no header. -/
def Dev.ringErased (d : Dev) (group : Word) : Dev :=
  match d.ringGroup group with
  | some (p, k) => d.onRing p (fun r => { r with pages := r.pages.filter (fun x => x.1 / groupPages d.img.geom ≠ k) })
  | none => d

/-- A block group of a ring could not be erased: the header that waits for it takes another place (R398). -/
def Dev.ringSkips (d : Dev) (group : Word) : Dev :=
  match d.ringGroup group with
  | some (p, _) =>
    let (n, wipe) := d.ringPlace p
    let d1 := d.onRing p (fun r => { r with next := n })
    if wipe then { d1 with img := { d1.img with erases := d1.img.erases ++ [(d.ringGroups p).getD (n / groupPages d.img.geom) 0] } } else d1
  | none => d

/-- The erase of a block group has reported: the group is blank, or is retired. -/
def Dev.eraseDone (d : Dev) (group : Word) (pass : Bool) : Dev :=
  let victim := d.img.gcVictim = some group
  let d1 := { d with img := { d.img with
    erases := d.img.erases.filter (· ≠ group), gcVictim := if victim then none else d.img.gcVictim } }
  if pass then
    (({ d1 with img := { d1.img with
      slots := d1.img.slots.filter (fun x => groupOf d.img.geom x.addr ≠ group)
      blockCycles := bumpCycles d1.img.blockCycles group
      gcRuns := if victim then satInc d1.img.gcRuns else d1.img.gcRuns } }).ringErased group).wearCounts
  else (d1.retire group 1).ringSkips group

/-- FLASH_ERASE_DONE: the erase of a block group that the device has issued reports. -/
def execFlashEraseDone (group : Word) (pass : Bool) (s : State) : Out :=
  .next (happen s (fun d => if d.img.erases.contains group then d.eraseDone group pass else d))

/-! ### Reads (R394, R417, R420, R578) -/

/-- The KIND of a page of a slot; one the model's flash does not hold is of the kind its name in the map says. -/
def Dev.pageKind (d : Dev) (slot : Word) (page : Nat) : Nat :=
  match d.img.slots.find? (fun s => s.addr = slot) with
  | some s => (s.page page).kind.toNat
  | none => if d.img.gmap.any (fun p => p.2.st = 1 && p.2.slot = slot) then 1 else 2

/-- An uncorrectable slot outside RESTORE (R420): reported once, and its granule becomes dirty if the working entry names it. -/
def Dev.badSlot (d : Dev) (slot : Word) (bad : List Nat) : Dev :=
  let page := (bad.foldl min 15) / 4
  let d1 := d.emit 0x0C04 (packBytes [(4, (slot + BitVec.ofNat 32 page).toNat), (1, d.pageKind slot page)])
  match d1.img.gmap.find? (fun p => p.2.st = 1 && p.2.slot = slot) with
  | some p => d1.setDirty p.1
  | none => d1

/-- The scrub pass reads its next slot, or ends (R419, R420, Table 11.11). A slot of a lost target is as an uncorrectable page (R661). -/
def Dev.scrubGo : List Word → Nat → Dev → Dev
  | a :: t, n, d =>
    if d.onLost a then Dev.scrubGo t n (d.badSlot a [0])
    else ({ d with img := { d.img with scrub := some { left := t, relocated := n } } }).startOp (.scrubRead a)
  | [], n, d =>
    let done := satInc d.img.scrubPasses
    ({ d with img := { d.img with scrub := none, scrubPasses := done } }).emit 0x0C07 (packBytes [(2, done.toNat), (4, (satBits 32 n).toNat)])

/-- The scrub pass goes on after a slot. -/
def Dev.scrubNext (d : Dev) (relocated : Nat) : Dev :=
  match d.img.scrub with
  | some k => Dev.scrubGo k.left (k.relocated + relocated) d
  | none => d

/-- A slot read by the scrub pass (R420). -/
def Dev.scrubbed (d : Dev) (slot : Word) (move : Bool) (bad : List Nat) : Dev :=
  if !bad.isEmpty then (d.badSlot slot bad).scrubNext 0
  else if move && d.cip.bound then (d.askMove slot false).scrubNext 1
  else d.scrubNext 0

/-- A slot to be relocated has been read, or cannot be (R417, R420). -/
def Dev.relocateRead (d : Dev) (slot : Word) (bad : List Nat) : Dev :=
  if bad.isEmpty then
    { d with img := { d.img with relocs := d.img.relocs.map (fun (r : Reloc) => if r.slot = slot then { r with read := true } else r) } }
  else ({ d with img := { d.img with relocs := d.img.relocs.filter (fun r => r.slot ≠ slot) } }).badSlot slot bad

/-- A re-sealed copy of the slot that the working entry names (R450). -/
def Dev.reseal (d : Dev) (g : Nat) (slot a : Word) (data : List Host.Cell) : Dev :=
  let c : Copy :=
    { id := d.img.nextOp, granule := g, slot := a, copyGen := 0, taint := (d.entry g).taint, purpose := 3, job := none, took := true
      data := data, fromSlot := slot, keyGen := 0 }
  ({ d.shareTaken with img := { d.shareTaken.img with copies := d.img.copies ++ [c], nextOp := d.img.nextOp + 1 } }).programCopy c

/-- Goat may write a copy of the image re-key. -/
def Dev.goatMay (d : Dev) : Bool := d.ctl.mode = .operate && d.canWrite && !d.awaits && !d.shutting && d.shareOpen

/-- Goat copies a granule from DRAM (R450); one that touches a frozen channel waits for the thaw (R638). -/
def Dev.goatCopy (d : Dev) (g : Nat) : Dev :=
  if d.granuleBlocked g then d
  else match d.nextSlot with
    | some a => d.shareTaken.newCopy g 4 a
    | none => d

/-- Goat has read the copy of a granule: it is re-sealed where every tag checks and the entry, clean, still names it; otherwise the granule
is copied from DRAM (R450). -/
def Dev.goatReadDone (d : Dev) (g : Nat) (slot : Word) (bad : List Nat) (altered : List SectorRead) : Dev :=
  let d1 := if bad.isEmpty then d else d.badSlot slot bad
  let e := d1.entry g
  if !d1.goatMay || e.st ≠ 1 || e.slot ≠ slot || d1.img.copies.any (fun c => c.granule = g && c.purpose ≠ 5) then d1
  else if !e.dirty && bad.isEmpty && (d1.forgedIn slot altered).isEmpty then
    (match d1.nextSlot with
     | some a => d1.reseal g slot a (d1.readPlain slot altered (d1.slotData slot))
     | none => d1)
  else d1.goatCopy g

/-- What follows a read of a slot, `bad` naming the sectors that cannot be read. -/
def Dev.readTaken (d : Dev) (op : FlashOp) (reads : List WordRead) (altered : List SectorRead) : Dev :=
  let bad := fun (slot : Word) => badSectors d.img.geom slot reads
  match op with
  | .restoreRead g _ =>
    if d.ctl.mode = .restore && d.rst.unrestored.contains g then d.restoreData g (bad (d.entry g).slot) altered else d
  | .scrubRead a => d.scrubbed a (needsMove d.img.geom reads) (bad a)
  | .relocRead a => d.relocateRead a (bad a)
  | .goatRead g a => d.goatReadDone g a (bad a) altered
  | _ => d

/-- Whether an operation is a read. -/
def FlashOp.isRead : FlashOp → Bool
  | .restoreRead _ _ => true
  | .scrubRead _ => true
  | .relocRead _ => true
  | .goatRead _ _ => true
  | _ => false

/-- The read `op` has reported: the codewords that did not come back clean, which are counted (R394), and the sectors that are not as they
were sealed. -/
def Dev.readDone (d : Dev) (op : Nat) (reads : List WordRead) (altered : List SectorRead) : Dev :=
  match d.img.ops.find? (fun o => o.1 = op && o.2.isRead) with
  | some o => ((d.endOp op).countWords reads).readTaken o.2 reads altered
  | none => d

/-- FLASH_READ_DONE. -/
def execFlashReadDone (op : Nat) (reads : List WordRead) (altered : List SectorRead) (s : State) : Out :=
  .next (happen s (fun d => d.readDone op reads altered))

/-! ### A lost target (R661) -/

/-- The program of a header on a ring whose target is lost: the other ring takes what it was the first to hold (log entry 70). -/
def Dev.ringGone (d : Dev) (primary : Bool) (op : FlashOp) : Dev :=
  match op, d.img.commit with
  | .reserve _ h, _ => if d.ringLost (!primary) then d else d.reservePassed true h
  | .header _ h, some c =>
    if c.phase = 3 then d.commitOver c
    else if d.ringLost (!primary) then d
    else d.startHeader (!primary) (.header (!primary) h)
  | _, _ => d

/-- What happens to an operation on a target that is lost (R661). -/
def Dev.opLost (d : Dev) (t : Nat × Nat) (o : Nat × FlashOp) : Dev :=
  let e := d.endOp o.1
  let ring := fun (primary : Bool) => if t = ((if primary then 0 else 2), 0) then e.ringGone primary o.2 else d
  match o.2 with
  | .marker primary _ => ring primary
  | .reserve primary _ => ring primary
  | .header primary _ => ring primary
  | .mapSlot a pages => if targetOf a = t then e.mapElsewhere a pages else d
  | .records _ =>
    if d.ringLost true && d.ringLost false then (if d.saving && d.sav.phase = 6 then e.savePhase7 else e) else d
  | .restoreRead g k =>
    if (k / 4, k % 4) = t then
      (if d.ctl.mode = .restore && d.rst.unrestored.contains g then e.restoreData g (List.range 16) [] else e)
    else d
  | .scrubRead a => if targetOf a = t then e.scrubbed a false [0] else d
  | .relocRead a => if targetOf a = t then e.relocateRead a [0] else d
  | .goatRead _ a => if targetOf a = t then e.badSlot a [0] else d

/-- A copy in flight to or from a lost target is abandoned; SAVE takes its granule again as its next (R409, R661). -/
def Dev.copyLost (d : Dev) (c : Copy) : Dev :=
  let d1 := d.dropCopy c
  if d.ctl.mode = .save && c.took && c.purpose ≤ 4 then { d1 with sav := { d1.sav with again := d1.sav.again ++ [c.granule] } } else d1

/-- A target is lost (R661): no granule, program, erase or relocation is given to it any more. -/
def Dev.targetGone (d : Dev) (channel target : Nat) : Dev :=
  let t := (channel, target)
  let d0 := ({ d with img := { d.img with lost := d.img.lost ||| BitVec.ofNat 32 (2 ^ (4 * channel + target)) } }).emit 0x0C08
    (packBytes [(1, channel), (1, target)])
  let d1 := { d0 with img := { d0.img with
    erases := d0.img.erases.filter (fun a => !d0.onLost a)
    gcVictim := match d0.img.gcVictim with | some a => if d0.onLost a then none else some a | none => none } }
  let gone := d1.img.copies.filter (fun c => targetOf c.slot = t || (c.purpose = 5 && targetOf c.fromSlot = t))
  let d2 := gone.foldl (fun (d : Dev) c => d.copyLost c) d1
  let d3 := { d2 with mc := d2.mc.map (fun (m : Mc) => { m with queue := m.queue.filter (fun e => match e.owner with
    | .mule k => !(gone.any (fun c => c.id = k)) | _ => true) }) }
  d1.img.ops.foldl (fun (d : Dev) o => d.opLost t o) d3

/-- FLASH_TARGET_LOST. -/
def execFlashTargetLost (channel target : Nat) (s : State) : Out :=
  .next (happen s (fun d =>
    let n := 4 * channel + target
    if !d.img.targetMap.getLsbD n || d.img.lost.getLsbD n then d else d.targetGone channel target))

/-! ### Rows that start work -/

/-- DIRTY_RECOUNT (R408). -/
def execDirtyRecount (s : State) : Out := .next (happen s (fun d => { d with reg := { d.reg with countBy := d.attrs } }))

/-- The dirty granules of a class from its cursor on, wrapping (R412). -/
def Dev.classFrom (d : Dev) (cls : Nat) : List Nat :=
  let l := (d.dirtyList.filter (fun g => classIn d.attrs g = cls)).filter d.copyable
  let k := d.img.cursors.getD cls 0
  l.filter (fun g => k ≤ g) ++ l.filter (fun g => g < k)

/-- Trickle is blocked (R413, R415, R416, R423, R424, R462). -/
def Dev.trickleBlocked (d : Dev) : Bool :=
  !d.canWrite || d.img.trickleRun || d.img.commit.isSome || d.shutting || d.img.wearLimited || d.img.throttled

/-- The batch of an instance: the smallest of the dirty granules, the whole tokens and 4 096 (R412). -/
def Dev.startTrickle (d : Dev) : Dev :=
  let l := d.classFrom 0 ++ d.classFrom 1 ++ d.classFrom 2
  let batch := l.take (min (d.img.tokens / 86400000) 4096)
  let cursor := fun (cls : Nat) => match (batch.filter (fun g => classIn d.attrs g = cls)).getLast? with
    | some g => g + 1
    | none => d.img.cursors.getD cls 0
  { d with img := { d.img with batch := batch, trickleRun := !batch.isEmpty, cursors := [cursor 0, cursor 1, cursor 2] } }

/-- TRICKLE_START: an instance of task 2 starts (Table 2.6, R412, R413). -/
def execTrickleStart (s : State) : Out :=
  .next (happen s (fun d =>
    let d0 := if d.canWrite then d.wearCheck else d
    if d.ctl.mode = .operate && !d.awaits && d.img.trickleEn && !d0.trickleBlocked then (d0.taskStart 8).startTrickle else d0))

/-- PERIODIC_COMMIT_DUE (Table 11.6). -/
def execPeriodicCommitDue (s : State) : Out :=
  .next (happen s (fun d =>
    if d.mayCommit 0 && d.img.changed && d.img.commit.isNone && d.img.lastCommitMs + 60000 ≤ d.ctl.uptimeMs && !d.shutting then d.askCommit 0 else d))

/-- The device may write a record set outside SAVE (R399). -/
def Dev.mayRecord (d : Dev) : Bool := d.img.usable && d.ctl.mode ≠ .save && d.img.state ≠ 0xFF && !d.shutting

/-- RECORD_SET_TIMER: every 4 h, and after a snapshot taken outside SAVE (R399). -/
def execRecordSetTimer (s : State) : Out := .next (happen s (fun d => if d.mayRecord then d.startRecords else d))

/-- The allowance of the governor (R414). -/
def Dev.allowance (d : Dev) : Word :=
  satBits 32 (allowanceMib d.logSlots d.img.ratedInUse.toNat d.img.lifePages d.img.serviceDays.toNat d.therm.hist)

/-- DAY_ROLLOVER (R391, R414, R415). -/
def execDayRollover (s : State) : Out :=
  .next (happen s (fun d =>
    let d1 := { d with img := { d.img with
      serviceDays := satInc d.img.serviceDays, usedPages := 0, ratedInUse := d.img.ratedCycles } }
    let d2 := { d1 with img := { d1.img with allowDayMib := d1.allowance } }
    let d3 := if d2.img.throttled then ({ d2 with img := { d2.img with throttled := false } }).emit 0x0C05 0 else d2
    let d4 := if d3.canWrite then d3.wearCheck else d3
    if d4.mayRecord then d4.startRecords else d4))

/-- The victim of garbage collection (R417): of the block groups that hold live slots, the one with the fewest, when the dead
slots of such groups exceed 1/16 of the log. -/
def Dev.gcChoice (d : Dev) : Option Word :=
  let groups := ((d.img.slots.map (fun s => groupOf d.img.geom s.addr)).eraseDups).filter (fun g =>
    !d.img.retired.contains g && !d.onLost g && !(d.liveIn g).isEmpty)
  let size := fun (g : Word) => (d.img.slots.filter (fun s => groupOf d.img.geom s.addr = g)).length
  let dead := groups.foldl (fun acc g => acc + (size g - (d.liveIn g).length)) 0
  if dead * 16 ≤ d.logSlots then none
  else groups.foldl (fun acc g => match acc with
    | none => some g
    | some b => if (d.liveIn g).length < (d.liveIn b).length then some g else some b) none

/-- GC_RELOCATE_START. -/
def execGcRelocateStart (s : State) : Out :=
  .next (happen s (fun d =>
    if !d.mayCollect || d.img.gcVictim.isSome then d
    else match d.gcChoice with
    | some v => ({ d with img := { d.img with gcVictim := some v } }).relocate v true
    | none => d))

/-- The slots a scrub pass reads: every live slot and map segment slot (R419). -/
def Dev.scrubList (d : Dev) : List Word :=
  ((((d.img.gmap ++ d.img.committed).filter (fun p => p.2.st = 1)).map (fun p => p.2.slot)) ++ d.metaSlots).eraseDups

/-- SCRUB_PASS_START: an instance of task 4 starts. -/
def execScrubPassStart (s : State) : Out :=
  .next (happen s (fun d =>
    if d.img.usable && !d.img.deferred && (d.ctl.mode = .operate || d.ctl.mode = .safehold) && d.img.scrub.isNone && !d.shutting then
      let d1 := d.taskStart 10
      Dev.scrubGo d1.scrubList 0 { d1 with img := { d1.img with lastScrubMs := d1.ctl.uptimeMs } }
    else d))

end Sys2Proof.Machine
end

