-- ==== Sys2Proof/Machine/Image.lean ====
section
/-! DEFINITION. Image discovery in the IMAGE step, and IMAGE_INFO, IMAGE_DISCARD and CHECKPOINT_FLUSH (chapter 11). -/
namespace Sys2Proof.Machine
open Sys2Proof

/-! ### Stage 1: the population and the devices (R389, R390) -/

/-- Targets of channel `y` among those present. -/
def channelTargets (present : BitVec 32) (y : Nat) : BitVec 4 := present.extractLsb' (4 * y) 4

/-- The population R390 asks for, but for the equality of the devices: NF0 to NF7 or NF0 to NF3 used, with 1, 2 or 4 targets
each from CE_N[0] upward. -/
def populationOk (present : BitVec 32) : Bool :=
  let first := channelTargets present 0
  let used := if channelTargets present 4 = 0 then 4 else 8
  (first = 1 || first = 3 || first = 15)
    && (List.range 8).all (fun y => channelTargets present y = if y < used then first else 0)

/-- Every target reports the same device (R390). -/
def sameDevices (gs : List FlashGeom) : Bool := match gs with | [] => true | g :: t => t.all (· = g)

/-- What R389 asks of a target. -/
def deviceOk (g : FlashGeom) : Bool :=
  g.pslc && g.pageBytes = 16384 && 2240 ≤ g.spareBytes && 1 ≤ g.luns && g.luns ≤ 4 && (g.planes = 1 || g.planes = 2 || g.planes = 4)
    && 64 ≤ g.pagesPerBlock && g.pagesPerBlock % 4 = 0

/-- The FLASH_UNUSABLE reason that stage 1 finds (Table 11.11). -/
def stage1Reason (present : BitVec 32) (gs : List FlashGeom) : Option Nat :=
  if present = 0 then some 3
  else if !populationOk present || !sameDevices gs then some 0
  else if !gs.all deviceOk then some 1
  else none

/-- The flash is unusable (R423). -/
def Dev.flashUnusable (d : Dev) (reason : Nat) : Dev := ({ d with img := { d.img with usable := false } }).emit 0x0C02 reason

/-- Stage 1. -/
def Dev.imageParams (d : Dev) (present : BitVec 32) (gs : List FlashGeom) : Dev :=
  let d1 := { d with img := { d.img with targetMap := present, geom := gs.headD FlashGeom.none, usable := true, stage := 2 } }
  match stage1Reason present gs with
  | some r => d1.flashUnusable r
  | none => d1

/-! ### Stage 2: the record set (R391, R397, R399, R656) -/

/-- RATED_CYCLES without a written value (R391). -/
def ratedOf (g : FlashGeom) : BitVec 16 := g.endurance.getD g.nativeEndurance

/-- The sum of two counts of the same events, held at the counter's largest value (R178). -/
def satSum (a b : Word) : Word := satBits 32 (a.toNat + b.toNat)

/-- The contents of the newer valid record set. -/
def Dev.loadRecords (d : Dev) (r : RecordSet) : Dev :=
  { d with
    img := { d.img with
      ratedWritten := r.ratedCycles, usedPages := r.usedPages, lifePages := r.lifePages, blockCycles := r.blocks
      serviceDays := r.serviceDays, peMax := r.peMax, peAvg := r.peAvg, badBlocks := r.badBlocks, scrubPasses := r.scrubPasses
      scrubHours := r.scrubHours }
    egy := { d.egy with
      capMf := r.capMf, esr := r.esr, testAgeMs := r.testAge.toNat * 3600000
      costFixed := if r.calibrated then r.costFixed else d.egy.costFixed
      costPj := if r.calibrated then r.costPj else d.egy.costPj }
    therm := { d.therm with
      hist := List.zipWith satSum r.hist d.therm.hist
      tMax := if d.therm.tMax < r.tMax then r.tMax else d.therm.tMax } }

/-- A ring whose block groups were `old` and are `new`: each page stands where its block group now is in the ring. -/
def Ring.placed (r : Ring) (per : Nat) (old new : List Word) : Ring :=
  let place := fun (n : Nat) => (new.idxOf? (old.getD (n / per % 4) 0)).map (fun k => k * per + n % per)
  if old.isEmpty then r
  else { next := (place r.next).getD 0, pages := r.pages.filterMap (fun p => (place p.1).map (fun n => (n, p.2))) }

/-- The system block groups: the first 8 good ones of each copy (R397). -/
def Dev.findSystem (d : Dev) (bad : List Word) : Dev :=
  let old := fun (primary : Bool) => d.ringGroups primary
  let d1 := { d with img := { d.img with sys := systemOf d.img.geom bad 0 ++ systemOf d.img.geom bad 2, retired := bad } }
  [true, false].foldl (fun (e : Dev) p => e.onRing p (fun r => r.placed (groupPages d.img.geom) (old p) (e.ringGroups p))) d1

/-- Stage 2: the system block groups are found among those neither marked bad nor in the block table as bad, and the newer valid record
set is loaded. -/
def Dev.imageRecords (d : Dev) (bad : List Word) (found : Option (List RecordSet)) (reads : List WordRead) : Dev :=
  let halves := match found with
    | some l => [l[0]?, l[1]?]
    | none => d.img.records
  let d0 := { d with img := { d.img with stage := 3 } }
  let d2 := if !d.img.usable then d0
    else
      let dc := d0.countWords reads
      let d1 : Dev := { dc with img := { dc.img with records := halves } }
      let table := match d1.recordSet with | some r => r.bad | none => []
      let d2 := d1.findSystem ((bad ++ table).eraseDups)
      if d2.img.sys.length < 16 then d2.flashUnusable 2
      else match d2.recordSet with
        | some r => d2.loadRecords r
        | none => d2
  let rated := d2.img.ratedWritten.getD (ratedOf d2.img.geom)
  { d2 with img := { d2.img with ratedCycles := rated, ratedInUse := rated } }

/-! ### Stages 3 and 4: the candidate (R404, R421, R422, R440, Table 11.10) -/

/-- The headers of both rings whose CRC is right. -/
def Dev.headers (d : Dev) : List Header := ((d.img.primary.pages ++ d.img.secondary.pages).map (·.2)).filter headerSound

/-- The page address of page `n` of a ring. -/
def Dev.ringPage (d : Dev) (primary : Bool) (n : Nat) : Word :=
  let per := groupPages d.img.geom
  (d.ringGroups primary).getD (n / per) 0 + BitVec.ofNat 32 (n % per)

/-- A ring as it is read: a page that cannot be corrected holds no sound header. -/
def Dev.ringRead (d : Dev) (reads : List WordRead) (primary : Bool) : Dev :=
  let lost := (badWords d.img.geom reads).map (·.page)
  d.onRing primary (fun r => { r with pages := r.pages.map (fun (p : Nat × Header) =>
    if lost.contains (d.ringPage primary p.1) then (p.1, { p.2 with crc := ~~~(crc32 (headerCovered p.2)) }) else p) })

/-- The newest of a list of headers. -/
def newestHeader (l : List Header) : Option Header :=
  l.foldl (fun acc h => match acc with
    | none => some h
    | some b => if b.generation.toNat < h.generation.toNat then some h else some b) none

/-- The candidate: the newest commit or empty-image header. -/
def candidateOf (l : List Header) : Option Header := newestHeader (l.filter (fun h => h.hkind = 0 || h.hkind = 2))

/-- A save-open marker newer than the candidate (SAVE_ABANDONED). -/
def abandonedIn (l : List Header) (c : Option Header) : Bool :=
  l.any (fun h => h.hkind = 1 && (match c with | some k => k.generation.toNat < h.generation.toNat | none => true))

/-- Stage 3. -/
def Dev.imageHeaders (d : Dev) (found : Option (List Header)) (reads : List WordRead) : Dev :=
  let d0 := match found with
    | some l => { d with img := { d.img with
        primary := { next := l.length, pages := l.zipIdx.map (fun (p : Header × Nat) => (p.2, p.1)) }, secondary := { next := 0, pages := [] } } }
    | none => d
  let d1 := if d.img.usable then ((d0.countWords reads).ringRead reads true).ringRead reads false else d0
  let hs := if d.img.usable then d1.headers else []
  let reserve := (hs.map (·.seqReserve)).foldl max 0
  let gen := (hs.map (fun h => h.keyGen.toNat)).foldl max 0
  let c := candidateOf hs
  { d1 with
    img := { d1.img with
      stage := 4, candidate := c, copyGen := reserve, seqReserve := reserve
      dir := match c with | some h => h.segmentDir | none => [] }
    cip := { d1.cip with headerGen := BitVec.ofNat 32 gen } }

/-- The seven domain keys of the IMAGE step (R435, R462). -/
def Dev.drawDomains (d : Dev) : Dev :=
  if d.cip.trngFault then d
  else { d with free := d.free + 7, cip := { d.cip with domKey := (List.range 7).map (fun i => d.free + 1 + i) } }

/-- The image keys a header's wrap held are bound to the device; a re-key it records goes on (R434, R440, R445, R452). -/
def Dev.holdKeys (d : Dev) (h : Header) (imkNew imkOld : BitVec 256) : Dev :=
  let c := { d.cip with imk := imkNew, imkOld := imkOld, imkGen := h.keyGen, oldGen := h.oldKeyGen, bound := true }
  { d with cip := if h.flags.getLsbD 3 then
      { c with rekeyActive := c.rekeyActive ||| 1, imageBoundary := h.rekeyBoundary, goatQueue := c.goatQueue ++ [0] }
    else c }

/-- The image keys of a header that a key opens: WRAP and AUTH both check (R438 to R440, R445). -/
def openHeader (key : BitVec 256) (wrap : BitVec 576) (h : Header) : Option (BitVec 256 × BitVec 256) :=
  (openWrap key wrap).bind (fun k => if h.auth = headerAuth k.1 h then some k else none)

/-- The class of the candidate (Table 11.10): 0 NONE, 1 VALID, 2 FOREIGN, 3 CORRUPT. -/
def Dev.classOf (d : Dev) : Byte :=
  if !d.img.usable then 3
  else match d.img.candidate with
    | none => 0
    | some h =>
      if h.hkind = 2 then 0
      else if h.bindingId ≠ bindingIdOf d.ident.dus then 2
      else if (openHeader d.dbk h.wrapDev h).isNone || d.dcfg.granules.toNat < h.granules.toNat then 3
      else 1

/-- Stage 4; with the keeper area deferred stages 5 and 6 are left out (R424). -/
def Dev.imageClassify (d : Dev) : Dev :=
  let cls := d.classOf
  let d1 := ({ d with img := { d.img with cls := cls, stage := if d.img.deferred then 7 else 5 } }).drawDomains
  match d1.img.candidate with
  | some h => if cls = 1 then (openHeader d.dbk h.wrapDev h).elim d1 (fun k => d1.holdKeys h k.1 k.2) else d1
  | none => d1

/-! ### Stages 5 and 6: the map and the zero fill -/

/-- The map that segment words give, DIRTY = 0. -/
def mapOfWords (l : List (Nat × BitVec 64)) : List (Nat × GEntry) :=
  l.foldl (fun m p => mapSet m p.1 (GEntry.ofBits p.2)) []

/-- The working map loaded from the segments a header names (stage 5, R445). DESIGN CHOICE (log entry 41): a map that comes with the command
brings no keeper record with it. -/
def Dev.loadMap (d : Dev) (entries : Option (List (Nat × BitVec 64))) : Dev :=
  match entries with
  | some l => { d with img := { d.img with gmap := mapOfWords l, committed := mapOfWords l, keeperCkpt := [], keeperCap := [] } }
  | none => { d with img := { d.img with gmap := d.img.committed } }

/-- Every map segment that the candidate names can be used under the keys given (R440). -/
def Dev.mapReads (d : Dev) (keys : Option ImageKeys) (reads : List WordRead) (altered : List SectorRead) : Bool :=
  match d.img.candidate with
  | some h => !h.segmentDir.any (pageFails d.img.geom keys reads altered)
  | none => false

/-- A keeper record page that cannot be used loses the checkpoints and the captures (R294, R440). -/
def Dev.keeperRead (d : Dev) (keys : Option ImageKeys) (reads : List WordRead) (altered : List SectorRead) : Dev :=
  match d.img.candidate with
  | some h =>
    if pageFails d.img.geom keys reads altered h.keeperPage then
      { d with img := { d.img with
          keeperCap := [], keeperCkpt := List.replicate 4 (some { st := .idle, cause := 0, run := none, runChunk := 0, stopChunk := 0,
                                                                  queue := [], nextId := 0, good := false }) } }
    else d
  | none => d

/-- Stage 5: a map that cannot be read classifies the image CORRUPT, and its keys are not held. -/
def Dev.imageMap (d0 : Dev) (entries : Option (List (Nat × BitVec 64))) (reads : List WordRead) (altered : List SectorRead) : Dev :=
  let d := if d0.img.cls = 1 then d0.countWords reads else d0
  let d1 := { d with img := { d.img with stage := 6, gmap := [] } }
  if d.img.cls ≠ 1 then d1
  else if d.mapReads d.imageKeys reads altered then (d1.loadMap entries).keeperRead d.imageKeys reads altered
  else
    { d1 with
      img := { d1.img with cls := 3 }
      cip := { d1.cip with
        bound := false, rekeyActive := d1.cip.rekeyActive &&& 0xFE, imageBoundary := 0, goatQueue := d1.cip.goatQueue.filter (· ≠ 0) } }

/-- Stage 6: zeros over all host-visible DRAM. -/
def Dev.imageZero (d : Dev) : Dev :=
  ({ d with img := { d.img with stage := 7 }, cip := { d.cip with burstKeys := [] } }).loseMem

/-! ### Stage 7 and the end of STARTUP -/

/-- The IMAGE_INFO fields that a header gives (Tables 5.12, 5.13, 11.5); SAVE_ABANDONED and RESTORED are the device's own. -/
def Img.withHeader (i : Img) (h : Header) : Img :=
  { i with
    generation := h.generation, granules := h.granules, unsaved := h.unsaved, tainted := h.tainted, rekeyBoundary := h.rekeyBoundary
    commitCause := h.commitCause, escrowCheck := h.escrowCheck, flags := (i.flags &&& 0x06) ||| (h.flags &&& 0x19) }

/-- The IMAGE_INFO fields at stage 7. -/
def Dev.imageFields (d : Dev) : Dev :=
  let mark : Byte := if d.img.usable && abandonedIn d.headers d.img.candidate then 2 else 0
  let i := { d.img with state := d.img.cls, flags := mark }
  { d with img := match d.img.candidate with
    | some h => if d.img.cls = 0 then { i with generation := h.generation, escrowCheck := h.escrowCheck } else i.withHeader h
    | none => i }

/-- The charger and the first energy measurement start (Table 2.2, R491, R494). -/
def Dev.startEnergy (d : Dev) : Dev :=
  let d1 := ({ d with egy := { d.egy with started := true } }).chargerEval
  if d1.unconfigured || d1.egy.charger = .fault || d1.chargerBlocked || d1.egy.test.isSome then d1 else d1.testStart false

/-- DONE: STARTUP is left for SAFEHOLD with a cause latched, otherwise for OPERATE (Table 2.2). -/
def Dev.startupDone (d : Dev) : Dev :=
  let safe := d.ctl.safeholdCauses ≠ 0
  let d1 := ({ d with ctl := { d.ctl with step := .done } }).emit 0x0101 (if safe then 4 else 1)
  if safe then ({ d1 with ctl := { d1.ctl with mode := .operate } }).enterSafehold .operate (lowestCause d.ctl.safeholdCauses)
  else ({ d1 with ctl := { d1.ctl with mode := .operate, pathCause := 0 } }).entryOperate .fromSafehold

/-- With no usable image there is no committed map (R421). -/
def Dev.noImage (d : Dev) : Dev :=
  if d.img.cls = 0 || d.img.cls = 3 then
    { d with img := { d.img with committed := [], dir := [], keeperCkpt := [], keeperCap := [] } } else d

/-- Stage 7: the allowance, the image fields, a new IMK where R434 asks for one, IMAGE_FOUND. -/
def Dev.imageFinish (d : Dev) : Dev :=
  let d1 := d.imageFields.noImage
  let d2 := if (d1.img.cls = 0 || d1.img.cls = 3) && !d1.cip.bound && !d1.cip.trngFault then d1.drawImk else d1
  let d3 := { d2 with img := { d2.img with stage := 0, lastCommitMs := d2.ctl.uptimeMs, allowDayMib := if d2.img.usable then d2.allowance else 0 } }
  let d4 := (if d3.img.usable then d3.wearCheck else d3).emit 0x0C00
    (packBytes [(1, d3.img.state.toNat), (1, d3.img.flags.toNat), (4, d3.img.generation.toNat)])
  if d.ctl.mode = .startup then d4.startEnergy.startupDone else d4

/-- Whether discovery runs: in the IMAGE step, or again from stage 5 once the keeper area stops being deferred (R424). -/
def Dev.discovering (d : Dev) : Bool :=
  if d.ctl.mode = .startup then d.ctl.step = .image && !d.startupHeld && !d.shutting
  else (d.ctl.mode = .operate || d.ctl.mode = .safehold) && 5 ≤ d.img.stage

/-- A stage ends with what the flash answered. -/
def Dev.imageStage (d : Dev) (o : ImageOutcome) : Dev :=
  match o, d.img.stage with
  | .params present gs, 1 => d.imageParams present gs
  | .records bad found reads, 2 => d.imageRecords bad found reads
  | .headers found reads, 3 => d.imageHeaders found reads
  | .classify, 4 => d.imageClassify
  | .loadMap entries reads altered, 5 => d.imageMap entries reads altered
  | .zeroFill, 6 => d.imageZero
  | .finish, 7 => d.imageFinish
  | _, _ => d

/-- IMAGE_STAGE_DONE. -/
def execImageStageDone (outcome : ImageOutcome) (s : State) : Out :=
  .next (happen s (fun d => if d.discovering then d.imageStage outcome else d))

/-! ### Commands -/

/-- IMAGE_INFO (R169). -/
def execImageInfo (x : Xact) (s : State) : Out := .next (transact s x (Cmd.plain 0x38 0 Dev.imageInfo))

/-- The conditions of IMAGE_DISCARD in their order (R166, R423 to R425, R462, R660). -/
def discardDenied (gen : Word) (d : Dev) : Option Byte :=
  if !d.img.usable then some stFaultMedia
  else deny (d.ctl.hostPath || d.img.flags.getLsbD 2 || d.img.state = 0 || d.img.state = 4 || gen ≠ d.img.generation || d.img.deferred
    || d.cip.trngFault)

/-- The work of IMAGE_DISCARD (R293, R425, R453, R460): new keys, an empty working map, no checkpoints of the image, no poison, and the
empty-image commit. -/
def Dev.discard (d : Dev) : Dev :=
  let d1 := d.drawImk
  ({ d1 with
    img := { d1.img with gmap := [], keeperCkpt := [], keeperCap := [], copies := d1.img.copies.map (fun (c : Copy) => { c with purpose := 6 }) }
    cip := { d1.cip with
      poison := [], rekeyActive := d1.cip.rekeyActive &&& 0xFE, imageBoundary := 0
      goatQueue := d1.cip.goatQueue.filter (· ≠ 0)
      goat := match d1.cip.goat with | some g => if g.target = 0 then none else some g | none => none } }).askCommit 3

/-- IMAGE_DISCARD. -/
def execImageDiscard (x : Xact) (generation : Word) (s : State) : Out :=
  .next (transact s x
    { opcode := 0x39, len := fun k => k = 4, modes := inO, lock := fun sd => sd.eu.locked, valid := fun _ => true, query := false
      cond := discardDenied generation, reply := fun _ _ => (stOk, []), modeChange := false, clear := fun d => d
      effect := fun _ d => Cmd.act (fun d => inO d && (discardDenied generation d).isNone) (cmdVoid 0x39 x) (fun d => d.discard) d })

/-- The conditions of CHECKPOINT_FLUSH in their order (R423, R424, R426, R462, R660). -/
def flushDenied (d : Dev) : Option Byte :=
  if !d.img.usable then some stFaultMedia
  else deny (d.awaits || d.img.flush.isSome || !d.cip.bound || d.img.deferred)

/-- CHECKPOINT_FLUSH: every granule dirty at its dispatch is to be copied, and then committed (R426, Table 11.6). -/
def execCheckpointFlush (x : Xact) (s : State) : Out :=
  .next (transact s x
    { opcode := 0x3A, len := fun k => k = 0, modes := inO, lock := fun _ => false, valid := fun _ => true, query := false
      cond := flushDenied, reply := fun _ _ => (stPending, []), modeChange := false, clear := fun d => d
      effect := fun _ d => Cmd.act (fun d => inO d && (flushDenied d).isNone) (cmdVoid 0x3A x)
        (fun d => { d with img := { d.img with flush := some d.dirtyList } }) d })

end Sys2Proof.Machine
end

