-- ==== Sys2Proof/Machine/Keys.lean ====
section
/-! DEFINITION. Keys: KEY_INSTALL, KEY_ROTATE, KEY_STATUS, BIND, Goat's two walks, the verdicts of RESTORE and the entropy source
(chapter 12). -/
namespace Sys2Proof.Machine
open Sys2Proof

/-! ### KEY_STATUS (R170, R171) -/

/-- The words of a byte list, the last one padded with zeros. -/
def wordsOf (l : List Byte) : List Word :=
  (List.range ((l.length + 3) / 4)).map (fun i =>
    (List.range 4).foldl (fun (w : Word) k => (w <<< 8) ||| (l.getD (4 * i + k) 0).setWidth 32) 0)

/-- KEY_STATUS's reply: the summary, or chunk `n` of the certificate chain. -/
def keyStatusWords (select : Byte) (d : Dev) : List Word :=
  if select = 0 then [d.keySummary, d.cip.imkGen, d.cip.escrowCheck, wd d.ident.cert.length]
  else wordsOf ((d.ident.cert.drop (256 * (select.toNat - 16))).take 256)

/-- KEY_STATUS with a SELECT. -/
def keyStatusCmd (select : Byte) : Cmd :=
  { Cmd.plain 0x42 1 (keyStatusWords select) with valid := fun _ => select = 0 || (16 ≤ select.toNat && select.toNat < 32) }

/-- KEY_STATUS, the summary. -/
def execKeyStatusSummary (x : Xact) (s : State) : Out := .next (transact s x (keyStatusCmd 0))

/-- KEY_STATUS, a certificate chunk; a SELECT that is not used is refused. -/
def execKeyStatusCert (x : Xact) (select : Byte) (s : State) : Out := .next (transact s x (keyStatusCmd select))

/-! ### The escrow wrap key (R166, R167, R443) -/

/-- The EWK is installed. -/
def Dev.installEscrow (d : Dev) (key : BitVec 256) (check : Word) : Dev :=
  ({ d with cip := { d.cip with escrow := some key, escrowCheck := check } }).emit 0x0D00 check.toNat

/-- KEY_INSTALL. -/
def execKeyInstall (x : Xact) (key : BitVec 256) (check : Word) (s : State) : Out :=
  .next (transact s x
    { opcode := 0x40, len := fun k => k = 36, modes := inO, lock := fun sd => sd.eu.locked, valid := fun _ => key ≠ 0, query := false
      cond := fun _ => if check = checkValue key then none else some stDeniedAuth
      reply := fun _ _ => (stOk, []), modeChange := false, clear := fun d => d
      effect := fun _ d => Cmd.act inO (cmdVoid 0x40 x) (fun d => d.installEscrow key check) d })

/-! ### KEY_ROTATE (R424, R447, R450, R462) -/

/-- The conditions of KEY_ROTATE in their order. -/
def rotateDenied (t : Nat) (d : Dev) : Option Byte :=
  if t = 0 && !d.img.usable then some stFaultMedia
  else deny (d.cip.rekeyActive.getLsbD t || d.img.deferred || d.cip.trngFault
    || (if t = 0 then !d.cip.bound || d.awaits else !d.cip.keyed.getLsbD (t - 1)))

/-- The image keys change: a new IMK is drawn and the previous one becomes IMK_OLD (R434, R450). -/
def Dev.rotateImk (d : Dev) : Dev :=
  let d1 := d.drawImk
  { d1 with cip := { d1.cip with imkOld := d.cip.imk, oldGen := d.cip.imkGen, imageBoundary := 0 } }

/-- The work of KEY_ROTATE: REKEY_ACTIVE, REKEY_STARTED, and the target's place in Goat's order. -/
def Dev.rotate (d : Dev) (t : Nat) : Dev :=
  let d1 := if t = 0 then d.rotateImk else d
  ({ d1 with cip := { d1.cip with
      rekeyActive := d1.cip.rekeyActive ||| BitVec.ofNat 8 (2 ^ t), goatQueue := d1.cip.goatQueue ++ [t] } }).emit 0x0D02
    (packBytes [(1, t), (4, if t = 0 then d1.cip.imkGen.toNat else 0)])

/-- KEY_ROTATE with a TARGET. -/
def rotateCmd (x : Xact) (target : Byte) : Cmd :=
  { opcode := 0x41, len := fun k => k = 1, modes := inO, lock := fun _ => false, valid := fun _ => target.toNat < 8, query := false
    cond := rotateDenied target.toNat, reply := fun _ _ => (stPending, []), modeChange := false, clear := fun d => d
    effect := fun _ d => Cmd.act (fun d => inO d && (rotateDenied target.toNat d).isNone) (keyVoid 0x41 x) (fun d => d.rotate target.toNat) d }

/-- KEY_ROTATE, TARGET 0. -/
def execKeyRotateImage (x : Xact) (s : State) : Out := .next (transact s x (rotateCmd x 0))

/-- KEY_ROTATE, TARGET 1 to 7; any other TARGET is refused. -/
def execKeyRotateDomain (x : Xact) (target : Byte) (s : State) : Out := .next (transact s x (rotateCmd x target))

/-! ### BIND (R168, R445, R446, R464) -/

/-- The conditions of BIND in their order (R660). -/
def bindDenied (gen : Word) (key : BitVec 256) (check : Word) (d : Dev) : Option Byte :=
  if !d.img.usable then some stFaultMedia
  else if d.img.state ≠ 2 || d.ctl.hostPath || gen ≠ d.img.generation then some stDeniedState
  else if check ≠ checkValue key || check ≠ d.img.escrowCheck then some stDeniedAuth
  else none

/-- BIND: its work starts, and ends with BIND_DONE. -/
def execBind (x : Xact) (generation : Word) (key : BitVec 256) (check : Word) (s : State) : Out :=
  .next (transact s x
    { opcode := 0x43, len := fun k => k = 40, modes := inO, lock := fun sd => sd.eu.locked, valid := fun _ => true, query := false
      cond := bindDenied generation key check, reply := fun _ _ => (stPending, []), modeChange := false, clear := fun d => d
      effect := fun _ d => Cmd.act (fun d => inO d && (bindDenied generation key check d).isNone) (keyVoid 0x43 x)
        (fun d => { d with cip := { d.cip with binding := d.cip.binding ++ [(x.tag, key)] } }) d })

/-- A successful BIND: the map, the EWK, the keys and the image state (R445 steps 3 to 6). -/
def Dev.bindOk (d : Dev) (h : Header) (key imkNew imkOld : BitVec 256) (entries : Option (List (Nat × BitVec 64))) : Dev :=
  let d1 := ((d.loadMap entries).installEscrow key (checkValue key)).holdKeys h imkNew imkOld
  ({ d1 with img := { d1.img.withHeader h with state := 1, cls := 1 } }).emit 0x0D04 0

/-- The work of a BIND under the keys that the escrow wrap holds: AUTH, and the map segments (R445). -/
def Dev.bindUnder (d : Dev) (h : Header) (key : BitVec 256) (entries : Option (List (Nat × BitVec 64))) (reads : List WordRead)
    (altered : List SectorRead) (k : BitVec 256 × BitVec 256) : Dev :=
  if headerAuth k.1 h ≠ h.auth then d.emit 0x0D04 2
  else
    let keys : Option ImageKeys := some { imk := k.1, gen := h.keyGen, imkOld := k.2, oldGen := h.oldKeyGen }
    let d1 := d.countWords reads
    if !d1.mapReads keys reads altered then ({ d1 with img := { d1.img with gmap := [] } }).emit 0x0D04 3
    else (d1.bindOk h key k.1 k.2 entries).keeperRead keys reads altered

/-- The work of a BIND on the candidate header: the wrap first (R445). -/
def Dev.bindHeader (d : Dev) (h : Header) (key : BitVec 256) (entries : Option (List (Nat × BitVec 64))) (reads : List WordRead)
    (altered : List SectorRead) : Dev :=
  (openWrap key h.wrapEsc).elim (d.emit 0x0D04 1) (d.bindUnder h key entries reads altered)

/-- The end of BIND's work. -/
def Dev.bindEnd (d : Dev) (entries : Option (List (Nat × BitVec 64))) (reads : List WordRead) (altered : List SectorRead) : Dev :=
  match d.cip.binding, d.img.candidate with
  | (tag, key) :: rest, some h =>
    let d1 := { d with cip := { d.cip with binding := rest } }
    if d1.img.state ≠ (2 : Byte) then d1.emit 0x0D05 (packBytes [(1, 0x43), (1, tag.toNat)])
    else d1.bindHeader h key entries reads altered
  | _, _ => d

/-- BIND_DONE: how the pages that the header names have read, and the map they hold. -/
def execBindDone (entries : Option (List (Nat × BitVec 64))) (reads : List WordRead) (altered : List SectorRead) (s : State) : Out :=
  .next (happen s (fun d => d.bindEnd entries reads altered))

/-! ### The key of a burst (R441, R448) -/

/-- Goat is re-keying DRAM domain `k`. -/
def Dev.rekeying (d : Dev) (k : Nat) : Bool := match d.cip.goat with | some g => 0 < g.target && g.target = k | none => false

/-- The draw of the key an access to a burst uses under a domain; 0 for domain 0, which is not encrypted. -/
def Dev.xtsKey (d : Dev) (domain : BitVec 3) (burst : Nat) : Nat :=
  let k := domain.toNat
  if k = 0 then 0
  else
    let new := d.cip.domKey.getD (k - 1) 0
    let b := (d.cip.boundary.getD (k - 1) 0).toNat
    if d.rekeying k && (b < burst / 1024 || (burst / 1024 = b && !(match d.cip.goat with | some g => g.doneBursts.contains burst | none => false))) then
      d.cip.domOld.getD (k - 1) 0
    else new

/-! ### Goat in DRAM (R448, R449) -/

/-- Element `i` of a list of seven, set. -/
def setAt {α : Type} (l : List α) (i : Nat) (v : α) : List α := l.modify i (fun _ => v)

/-- Goat takes a DRAM domain: a new key is drawn and the walk starts at unit 0. -/
def Dev.goatTake (d : Dev) (k : Nat) : Dev :=
  let (n, d1) := d.draw
  { d1 with cip := { d1.cip with
      domOld := setAt d1.cip.domOld (k - 1) (d1.cip.domKey.getD (k - 1) 0), domKey := setAt d1.cip.domKey (k - 1) n
      boundary := setAt d1.cip.boundary (k - 1) 0
      goat := some { target := k, job := none, doneBursts := [], finishing := false } } }

/-- The end of a DRAM re-key: the old key is destroyed (R448). -/
def Dev.goatDone (d : Dev) (k : Nat) : Dev :=
  ({ d with cip := { d.cip with
      domOld := setAt d.cip.domOld (k - 1) 0, goat := none, goatQueue := d.cip.goatQueue.filter (· ≠ k)
      rekeyActive := d.cip.rekeyActive &&& ~~~(BitVec.ofNat 8 (2 ^ k)) } }).emit 0x0D03 k

/-- The unit in progress is finished, or passed. -/
def Dev.goatUnitEnd (d : Dev) (k : Nat) : Dev :=
  let b := d.cip.boundary.getD (k - 1) 0 + 1
  let d1 := { d with cip := { d.cip with
    boundary := setAt d.cip.boundary (k - 1) b, goat := some { target := k, job := none, doneBursts := [], finishing := false } } }
  if d.dcfg.granules.toNat ≤ b.toNat then d1.goatDone k else d1

/-- The next unit of the walk: passed at once when another domain governs it, waiting while it touches a frozen channel,
otherwise its 1 024 bursts. -/
def Dev.goatUnit (d : Dev) (k : Nat) : Dev :=
  let u := (d.cip.boundary.getD (k - 1) 0).toNat
  if d.granuleBlocked u then d
  else if (domainIn d.attrs u).toNat ≠ k then d.goatUnitEnd k
  else { d with cip := { d.cip with goat := some { target := k, doneBursts := [], finishing := false
                                                   job := some { reads := [], writes := granuleBursts u, queued := 0, buffer := [], stopped := false, tainted := false } } } }

/-- One burst of the unit is under the new key. -/
def Dev.goatBurst (d : Dev) (burst : Nat) : Dev :=
  match d.cip.goat with
  | some g =>
    match g.job with
    | some j =>
      let g1 := { g with doneBursts := g.doneBursts ++ [burst], job := some { j with queued := j.queued - 1 } }
      let d1 := { d with cip := { d.cip with goat := some g1 } }
      if j.writes.isEmpty && j.queued ≤ 1 then d1.goatUnitEnd g.target else d1
    | none => d
  | none => d

/-- GOAT_UNIT_START: in OPERATE, with a DRAM domain first in Goat's order. No key is drawn while an entropy-source fault is
latched (Table 12.7). -/
def execGoatUnitStart (s : State) : Out :=
  .next (happen s (fun d =>
    match d.cip.goatQueue with
    | k :: _ =>
      if k = 0 || d.ctl.mode ≠ .operate || d.shutting then d
      else
        (match d.cip.goat with
         | none => if d.cip.trngFault then d else (d.goatTake k).goatUnit k
         | some g => if g.job.isSome then d else d.goatUnit k)
    | [] => d))

/-! ### Goat in flash (R450 to R452) -/

/-- Goat is reading a slot. -/
def Dev.goatReading (d : Dev) : Bool := d.img.ops.any (fun o => match o.2 with | .goatRead _ _ => true | _ => false)

/-- The granule at the image boundary: passed at once unless its entry names a copy under the old key; a clean one's copy is read for its
tags, a dirty one is copied from DRAM (R450). -/
def Dev.goatGranule (d : Dev) : Dev :=
  let g := d.cip.imageBoundary.toNat
  let d1 := if d.cip.goat.isNone then
    { d with cip := { d.cip with goat := some { target := 0, job := none, doneBursts := [], finishing := false } } } else d
  if d.dcfg.granules.toNat ≤ g || d.goatReading || d.img.copies.any (fun c => c.granule = g && c.purpose ≠ 5) then d1
  else if !d.oldKeyed g then d1.goatAdvance
  else if !d1.goatMay then d1
  else if (d.entry g).dirty then d1.goatCopy g
  else if d.onLost (d.entry g).slot then (d1.badSlot (d.entry g).slot [0]).goatCopy g
  else d1.startOp (.goatRead g (d.entry g).slot)

/-- GOAT_GRANULE_START: in OPERATE, once the image has been restored or discarded, with the image first in Goat's order. -/
def execGoatGranuleStart (s : State) : Out :=
  .next (happen s (fun d =>
    if d.cip.goatQueue.head? = some 0 && d.ctl.mode = .operate && d.canWrite && !d.awaits && !d.shutting then d.goatGranule else d))

/-! ### Verdicts (R454 to R456) -/

/-- A sector's tag has failed: its granule is poisoned and the alarm raised. -/
def Dev.tagFail (d : Dev) (g s : Nat) (delivered : Bool) : Dev :=
  let d1 := d.poison g
  ({ d1 with cip := { d1.cip with lateAuthFails := satInc d1.cip.lateAuthFails } }).emit 0x0D06
    (packBytes [(4, g), (1, s), (1, bit delivered 0)])

/-- A sector delivered before its verdict. -/
def Dev.awaitsVerdict (d : Dev) (g s : Nat) : Bool := d.rst.verdicts.any (fun v => v.granule = g && v.sector = s)

/-- A sector that VERIFY_FIRST holds back. -/
def Dev.awaitsCheck (d : Dev) (g s : Nat) : Bool := d.rst.flight.any (fun r => r.granule = g && r.job.isNone && r.unjudged.contains s)

/-- A sector judged under VERIFY_FIRST; with all of them judged the restore writes begin, failed sectors as zeros (R455). -/
def Dev.judged (d : Dev) (g s : Nat) (pass : Bool) : Dev :=
  let f := fun (r : RGran) =>
    if r.granule = g then
      let r1 := { r with unjudged := r.unjudged.filter (· ≠ s), failed := if pass then r.failed else r.failed ++ [s] }
      if r1.unjudged.isEmpty then
        let data := r1.data.filter (fun c => !r1.failed.contains (c.1 / 4096))
        { r1 with data := data, job := some (restoreJob g data) }
      else r1
    else r
  { d with rst := { d.rst with flight := d.rst.flight.map f } }

/-- The verdict of a sector that was delivered first is no longer pending. -/
def Dev.verdictIn (d : Dev) (g s : Nat) : Dev :=
  { d with rst := { d.rst with verdicts := d.rst.verdicts.filter (fun v => !(v.granule = g && v.sector = s)) } }

/-- Whether the tag of a sector of a granule being restored passes (R436): of one delivered, of one held back. -/
def Dev.tagPasses (d : Dev) (g s : Nat) : Bool :=
  match d.rst.verdicts.find? (fun v => v.granule = g && v.sector = s) with
  | some v => v.pass
  | none => !d.rst.flight.any (fun r => r.granule = g && r.forged.contains s)

/-- A verdict (R454, R455). -/
def Dev.verdict (d : Dev) (g s : Nat) (elapsed : BitVec 16) : Dev :=
  let pass := d.tagPasses g s
  if d.awaitsVerdict g s then
    let d1 := d.verdictIn g s
    let d2 := { d1 with cip := { d1.cip with alarmWorst := if d1.cip.alarmWorst < elapsed then elapsed else d1.cip.alarmWorst } }
    if pass then d2 else d2.tagFail g s true
  else if d.awaitsCheck g s then
    let d1 := d.judged g s pass
    if pass then d1 else d1.tagFail g s false
  else d

/-- A verdict that is not reached in time (R456). -/
def Dev.verdictLate (d : Dev) (g s : Nat) : Dev :=
  if d.awaitsVerdict g s then ((d.verdictIn g s).tagFail g s true).emit 0x0D0A (packBytes [(4, g), (1, s)])
  else if d.awaitsCheck g s then ((d.judged g s false).tagFail g s false).emit 0x0D0A (packBytes [(4, g), (1, s)])
  else d

/-- SECTOR_VERDICT. -/
def execSectorVerdict (granule sector : Nat) (elapsed : BitVec 16) (s : State) : Out :=
  .next (happen s (fun d => d.verdict granule sector elapsed))

/-- VERDICT_TIMEOUT. -/
def execVerdictTimeout (granule sector : Nat) (s : State) : Out := .next (happen s (fun d => d.verdictLate granule sector))

/-! ### The entropy source (R462) -/

/-- TRNG_FAULT: latched until the next entry to STARTUP. -/
def execTrngFault (test : Bool) (s : State) : Out :=
  .next (happen s (fun d =>
    if d.cip.trngFault then d else ({ d with cip := { d.cip with trngFault := true } }).emit 0x0D09 (bit test 0)))

end Sys2Proof.Machine
end

