-- ==== Sys2Proof/Machine/Sweep.lean ====
section
/-! DEFINITION. What training computes from its sweeps: the test pattern, the eye of a lane, the delays and Vref values set, the
training words, and the edges that entry retraining and pauses find (R344 to R347, R351, R352, R355). -/
namespace Sys2Proof.Machine
open Sys2Proof

/-! ### The test pattern (R345) -/

/-- One step of the 23-bit LFSR with polynomial x^23 + x^18 + 1. -/
def lfsrNext (s : BitVec 23) : BitVec 23 := (s <<< 1) ||| (BitVec.ofBool (s.getLsbD 22 ^^ s.getLsbD 17)).setWidth 23

/-- The next `n` bits of the LFSR, its bit 22 first. -/
def lfsrBits : Nat → BitVec 23 → List Bool
  | 0, _ => []
  | n + 1, s => s.getLsbD 22 :: lfsrBits n (lfsrNext s)

/-- A byte of the next eight bits of a list, the first in bit 0, for `n` bytes. -/
def packPattern : Nat → List Bool → List Byte
  | 0, _ => []
  | n + 1, l => ((l.take 8).zipIdx.foldl (fun (acc : Byte) (b : Bool × Nat) => if b.1 then acc ||| (1#8 <<< b.2) else acc) 0) :: packPattern n (l.drop 8)

/-- What a lane carries in the 64 bursts of 16 beats of the test pattern: pin k of beat b is bit 8b + k of the LFSR's output from the
seed 0x7FFFFF (log entry 59). -/
def trainPattern : List Byte := packPattern 1024 (lfsrBits 8192 0x7FFFFF)

/-! ### Sweeps (R344, R346) -/

/-- What arrives on a lane at a delay step. -/
def arrived (w : Sweep) (step : Nat) : List Byte :=
  w.foldl (fun l e => if e.1 = step then listUpd l e.2.1 (fun b => b ^^^ e.2.2) else l) trainPattern

/-- A step passes on a rank when the 64 bursts arrive with no bit error. -/
def stepPasses (w : Sweep) (step : Nat) : Bool := arrived w step = trainPattern

/-- A step passes on every one of `ranks` ranks. -/
def passesAll (ws : List Sweep) (ranks step : Nat) : Bool := (List.range ranks).all (fun r => stepPasses (ws.getD r []) step)

/-- The longest run of the steps 0 to `n - 1` that pass, as its first step and its width; of two equal runs the lower (R344). -/
def longestRun (pass : Nat → Bool) (n : Nat) : Nat × Nat :=
  ((List.range n).foldl (fun (a : (Nat × Nat) × (Nat × Nat)) s =>
    let cur := if pass s then (if a.1.2 = 0 then s else a.1.1, a.1.2 + 1) else (0, 0)
    (cur, if a.2.2 < cur.2 then cur else a.2)) ((0, 0), (0, 0))).2

/-- The eye of a lane over the delays 0 to 255. -/
def eyeOf (ws : List Sweep) (ranks : Nat) : Nat × Nat := longestRun (passesAll ws ranks) 256

/-- The delay set: the first step of the eye plus half its width, rounded down (R344). -/
def eyeDelay (e : Nat × Nat) : Nat := e.1 + e.2 / 2

/-- The Vref step at the middle of the range of steps that pass on every rank (R346; log entry 59 for several ranges). -/
def vrefOf (steps : List (List Nat)) (ranks : Nat) : Nat :=
  let n := (steps.flatten.foldl max 0) + 1
  let r := longestRun (fun s => (List.range ranks).all (fun k => (steps.getD k []).contains s)) n
  r.1 + (r.2 - 1) / 2

/-! ### Training words (Table 6.8) -/

/-- A training word from its delays and eye widths; a width of 256 shows as 255 (log entry 59). -/
def trainWord (rd wr rdEye wrEye : Nat) : Word :=
  wd (rd % 256 * 2 ^ 24 + wr % 256 * 2 ^ 16 + min rdEye 255 * 2 ^ 8 + min wrEye 255)
/-- RD_DELAY. -/
def wordRd (w : Word) : Nat := (w.extractLsb' 24 8).toNat
/-- WR_DELAY. -/
def wordWr (w : Word) : Nat := (w.extractLsb' 16 8).toNat
/-- RD_EYE. -/
def wordRdEye (w : Word) : Nat := (w.extractLsb' 8 8).toNat
/-- WR_EYE. -/
def wordWrEye (w : Word) : Nat := (w.extractLsb' 0 8).toNat

/-- The minimum widths of a training point (R347). -/
def pointValid (words : List Word) (p : Nat) : Bool :=
  let minimum := if p = 0 then 32 else 64
  (List.range 5).all (fun lane =>
    let w := words.getD (2 * lane + p) 0
    minimum ≤ wordRdEye w && minimum ≤ wordWrEye w)

/-- The word of a lane from a read and a write eye. -/
def eyesWord (rd wr : Nat × Nat) : Word := trainWord (eyeDelay rd) (eyeDelay wr) rd.2 wr.2

/-- The edges of a lane from a read and a write eye. -/
def eyesEdges (rd wr : Nat × Nat) : LaneEdges :=
  { rdLow := rd.1, rdHigh := rd.1 + rd.2 - 1, wrLow := wr.1, wrHigh := wr.1 + wr.2 - 1 }

/-- A lane with nothing found. -/
def noLane : LaneSweep := { dqVref := [], rxVref := [], read := [], write := [] }

/-- The lane of a point's sweep. -/
def laneOf (s : PointSweep) (l : Nat) : LaneSweep := s.lanes.getD l noLane

/-- The channel with point `p` trained (R343, R344, R346): words, Vref and command/address results, and at point 0 the edges and
each rank's eyes. -/
def Mc.trainPoint (m : Mc) (p : Nat) (s : PointSweep) : Mc :=
  let ranks := m.ranks.toNat + 1
  let rd := fun l => eyeOf (laneOf s l).read ranks
  let wr := fun l => eyeOf (laneOf s l).write ranks
  { m with
    ca := listUpd m.ca p (fun _ => s.ca)
    train := m.train.zipIdx.map (fun (q : Word × Nat) => if q.2 % 2 = p then eyesWord (rd (q.2 / 2)) (wr (q.2 / 2)) else q.1)
    vref := m.vref.zipIdx.map (fun (q : (Nat × Nat) × Nat) =>
      if q.2 % 2 = p then (vrefOf (laneOf s (q.2 / 2)).dqVref ranks, vrefOf (laneOf s (q.2 / 2)).rxVref ranks) else q.1)
    edges := if p = 0 then (List.range 5).map (fun l => eyesEdges (rd l) (wr l)) else m.edges
    rankEyes := if p = 0 then (List.range 5).map (fun l => (List.range ranks).map (fun r =>
      min (eyeOf [(laneOf s l).read.getD r []] 1).2 (eyeOf [(laneOf s l).write.getD r []] 1).2)) else m.rankEyes }

/-! ### The retraining of an entry to OPERATE (R355) -/

/-- The first step of a window in which passing begins, or in which it ends. -/
def edgeIn (pass : Nat → Bool) (lo hi : Nat) (rise : Bool) : Option Nat :=
  (List.range (hi + 1)).find? (fun s => lo ≤ s && pass s
    && (if rise then (s = 0 || (lo < s && !pass (s - 1))) else (s = 255 || (s < hi && !pass (s + 1)))))

/-- The eye found within 32 steps of the stored edges, or over the full range where an edge is not found. -/
def eyeNear (ws : List Sweep) (ranks low high : Nat) : Nat × Nat :=
  let pass := passesAll ws ranks
  match edgeIn pass (low - 32) (min 255 (low + 32)) true, edgeIn pass (high - 32) (min 255 (high + 32)) false with
  | some a, some b => if a ≤ b then (a, b + 1 - a) else eyeOf ws ranks
  | _, _ => eyeOf ws ranks

/-- The channel with its point 0 words, edges and delays replaced (R355). -/
def Mc.retrain (m : Mc) (lanes : List LaneSweep) : Mc :=
  let ranks := m.ranks.toNat + 1
  let edge := fun l => m.edges.getD l { rdLow := 0, rdHigh := 0, wrLow := 0, wrHigh := 0 }
  let rd := fun l => eyeNear (lanes.getD l noLane).read ranks (edge l).rdLow (edge l).rdHigh
  let wr := fun l => eyeNear (lanes.getD l noLane).write ranks (edge l).wrLow (edge l).wrHigh
  { m with
    train := m.train.zipIdx.map (fun (q : Word × Nat) => if q.2 % 2 = 0 then eyesWord (rd (q.2 / 2)) (wr (q.2 / 2)) else q.1)
    edges := (List.range 5).map (fun l => eyesEdges (rd l) (wr l)) }

/-! ### Pauses (R351, R352) -/

/-- The delays a pause tests around an edge: -12 to +12 steps in steps of 3. -/
def testedDelays (edge : Nat) : List Int := (List.range 9).map (fun (k : Nat) => (edge : Int) + 3 * (k : Int) - 12)

/-- The new low edge: the lowest tested delay from which every tested delay passes; none when the edge lies outside them. -/
def lowEdge (edge : Nat) (bits : BitVec 9) : Option Int :=
  if bits.getLsbD 0 || !bits.getLsbD 8 then none
  else ((List.range 9).find? (fun k => (List.range 9).all (fun j => j < k || bits.getLsbD j))).bind (fun k => (testedDelays edge)[k]?)

/-- The new high edge: the highest tested delay up to which every tested delay passes. -/
def highEdge (edge : Nat) (bits : BitVec 9) : Option Int :=
  if bits.getLsbD 8 || !bits.getLsbD 0 then none
  else ((List.range 9).reverse.find? (fun k => (List.range 9).all (fun j => k < j || bits.getLsbD j))).bind (fun k => (testedDelays edge)[k]?)

/-- A direction measured in a pause: its new edges, or the training loss of an edge outside the tested delays (R352). -/
def measured (low high : Nat) (lo hi : BitVec 9) : Option (Nat × Nat) :=
  match lowEdge low lo, highEdge high hi with
  | some a, some b => if a ≤ b then some (a.toNat, b.toNat) else some (a.toNat, a.toNat)
  | _, _ => none

/-- A delay moved toward a centre by at most 4 steps (R352). -/
def moveDelay (old centre : Nat) : Nat := if old ≤ centre then min centre (old + 4) else max centre (old - 4)

end Sys2Proof.Machine
end

