-- ==== Sys2Proof/Machine/Startup.lean ====
section
/-! DEFINITION. Power, resets, straps, supply domains, the clock unit, the port resets and the stages of the DRAM step
(chapters 2, 3 and 9). -/
namespace Sys2Proof.Machine
open Sys2Proof

/-! ### Power and reset (R17, R37, R38, R81) -/

/-- RESET_N_RELEASE: from UNPOWERED the device enters STARTUP at CONFIG with RESET_CAUSE = 0 (Table 2.3). -/
def execResetNRelease (s : State) : Out :=
  .next (happenAny s (fun d =>
    if d.ctl.mode = .unpowered then
      { d with ctl := { d.ctl with mode := .startup, step := .config, resetCause := 0, resetLow := false } }
    else { d with ctl := { d.ctl with resetLow := false } }))

/-- The device is in CONFIG with RESET_N released. -/
def Dev.configuring (d : Dev) : Bool := d.ctl.mode = .startup && d.ctl.step = .config && !d.ctl.resetLow

/-- STRAP_SAMPLE: both straps, once for each CONFIG (R81). -/
def execStrapSample (strap0 strap1 : Bool) (s : State) : Out :=
  .next (happenAny s (fun d =>
    if d.configuring && !d.ident.sampled then
      { d with ident := { d.ident with strap0 := strap0, strap1 := strap1, sampled := true } }
    else d))

/-- The end of CONFIG: fuses loaded, the event queue cleared, COLD_START (Table 2.2). -/
def Dev.configEnd (d : Dev) (f : Fuses) : Dev :=
  ({ d with
    ident := { d.ident with serial := f.serial, herdAddr := f.herdAddr, dus := f.dus, cert := f.cert }
    eu := { d.eu with waitBytes := if d.ident.strap0 then 8 else 4 }
    ctl := { d.ctl with
      step := .waitRails, uptimeMs := 0
      powerGoodSince := if d.ctl.pfailLow then none else some 0 }
    herd := { d.herd with addr := if d.ident.strap1 then f.herdAddr else 0 }
    rail := { d.rail with lastCause := 0 }
    roo := { d.roo with shortId := f.serial.extractLsb' 0 16, beaconPending := d.roo.beaconEn }
    out := { d.out with clearQueue := true, seqReset := true } }).emit 0x0100 d.ctl.resetCause.toNat

/-- CONFIG_DONE. -/
def execConfigDone (fuses : Fuses) (s : State) : Out :=
  .next (happenAny s (fun d =>
    if d.configuring && d.ident.sampled && !d.startupHeld then d.configEnd fuses else d))

/-- An open transaction is abandoned and counted (R114). -/
def Dev.abandonOpen (d : Dev) (open_ : Bool) : Dev :=
  if open_ then { d with eu := { d.eu with abandoned := satInc d.eu.abandoned } } else d

/-- RESET_N_ASSERT: a cold reset in every state but SAVE (R37); in SAVE it is latched (R38). A shutdown that has begun is no
longer SAVE. A transaction open at the time is abandoned (R114). -/
def execResetNAssert (open_ : Bool) (s : State) : Out :=
  let latch := s.d.ctl.mode = .save && s.d.rail.shut.isNone
  let s1 := happenAny s (fun d =>
    if d.ctl.mode = .unpowered then d
    else if latch then
      (({ d with ctl := { d.ctl with resetLow := true, resetLatched := true } }).abandonOpen (open_ && d.portLive)).emit 0x0113 0
    else (({ d with ctl := { d.ctl with resetLow := true } }).abandonOpen (open_ && d.portLive)).coldReset 1)
  .next (if latch && !open_ then s1 else s1.cut)

/-- VDD_AON_LOSS (Table 2.3). -/
def execVddAonLoss (s : State) : Out := .next (happenAny s (fun d => if d.ctl.mode = .unpowered then d else d.powerOff))

/-! ### Supply domains (R85, R86) -/

/-- VDD_FAB and VDDH_FAB. -/
def isFabDomain (n : Nat) : Bool := n = 4 || n = 5

/-- A fault of a domain that SAVE needs, in STARTUP: every PS_EN low, in the current step (Table 3.13). -/
def Dev.holdStartup (d : Dev) : Dev :=
  { d with ctl := { d.ctl with domainHold := true }, rail := { d.rail with
      slots := d.rail.slots.map (fun (s : Slot) =>
        { s with enabled := false, st := if s.st = .unused then RailState.unused else .off })
      pending := [], waiting := 0, shut := none, delaying := [], order := [] } }

/-- The reaction to a domain fault (R86, Table 3.13). -/
def Dev.domainReact (d : Dev) (n : Nat) : Dev :=
  if isFabDomain n then (d.portFall .fa 2).portFall .fb 2
  else if d.ctl.mode = .startup then d.holdStartup
  else (if d.herdArmed then d.herdEnterCut true 1 else d).railReaction true 1 n

/-- DOMAIN_FAULT: of VDD_IO, which the port runs from, it abandons a transaction open at the time (R114). -/
def execDomainFault (domain : Nat) (open_ : Bool) (s : State) : Out :=
  let live := s.d.portLive
  let s1 := happenAny s (fun d =>
    if d.ctl.mode = .unpowered || d.ctl.domainsDown.getLsbD domain then d
    else
      let d1 := { d with ctl := { d.ctl with domainsDown := d.ctl.domainsDown ||| BitVec.ofNat 7 (2 ^ domain) } }
      if d.alive then
        ((({ d1 with eu := { d1.eu with domainFaultSeen := true } }.abandonOpen (open_ && live && domain = 6)).emit 0x0E70 domain).snapshot 8 0).domainReact domain
      else if isFabDomain domain then d1 else d1.holdStartup)
  .next (if live && !s1.d.portLive then s1.cut else s1)

/-- DOMAIN_GOOD: a domain back in range for 1 ms (R85). With every domain back, a STARTUP that a domain fault held makes its cold
reset with RESET_CAUSE = 0 (R86; log entry 44 for a domain that fell outside STARTUP). -/
def execDomainGood (domain : Nat) (s : State) : Out :=
  .next (happenAny s (fun d =>
    if d.ctl.mode = .unpowered || !d.ctl.domainsDown.getLsbD domain then d
    else
      let d1 := { d with ctl := { d.ctl with domainsDown := d.ctl.domainsDown &&& ~~~(BitVec.ofNat 7 (2 ^ domain)) } }
      let d2 := if d.alive then d1.emit 0x0E71 domain else d1
      let d3 := if d.alive && isFabDomain domain then (d2.portWake .fa).portWake .fb else d2
      if d3.startupHeld && d3.ctl.domainsDown = 0 then d3.coldReset 0 else d3))

/-! ### Clocks (R31 to R36, R634, R635) -/

/-- A measurement of HOSC against REFCLK (R36). -/
def Dev.hoscMeasured (d : Dev) (dev : BitVec 8) : Dev :=
  let out := dev.toInt < -30 || 30 < dev.toInt
  let d1 := { d with clk := { d.clk with hoscDev := dev, hoscOut := out } }
  if out then ({ d1 with eu := { d1.eu with hoscDriftSeen := true } }).emit 0x0142 dev.toNat else d1

/-- HOSC_MEASURE, while REFCLK is good. -/
def execHoscMeasure (deviation : BitVec 8) (s : State) : Out :=
  .next (happen s (fun d => if d.clk.refGood then d.hoscMeasured deviation else d))

/-- WAIT_REFCLK is running and nothing holds it. -/
def Dev.inWaitRefclk (d : Dev) : Bool := d.ctl.mode = .startup && d.ctl.step = .waitRefclk && !d.startupHeld && !d.shutting

/-- PLL_LOCK: two good windows have been seen and the PLLs lock; the ports may train, HOSC is measured, and the data plane's switch
to REFCLK begins, at whose end WAIT_REFCLK ends (Table 2.2, R19, R33). -/
def execPllLock (deviation : BitVec 8) (s : State) : Out :=
  .next (happen s (fun d =>
    if d.inWaitRefclk && !d.clk.switching then
      let d1 := { d with clk := { d.clk with refGood := true, pllLocked := true, switching := true, target := false } }
      ((d1.hoscMeasured deviation).portWake .fa).portWake .fb
    else d))

/-- REFCLK is lost: the ports lose their reference. -/
def Dev.refclkGone (d : Dev) : Dev :=
  let d1 := { d with clk := { d.clk with refGood := false, pllLocked := false } }
  if d.clk.pllLocked then (d1.portFall .fa 3).portFall .fb 3 else d1

/-- REFCLK_LOST is queued and its flag set. -/
def Dev.refclkReport (d : Dev) : Dev :=
  ({ d with eu := { d.eu with refclkLostSeen := true } }).emit 0x0140 (bit d.clk.switching 0)

/-- The switch to HOSC that R34 asks for; a switch in progress completes first (R33, R634). -/
def Dev.refclkSwitch (d : Dev) : Dev := if d.clk.switching || d.clk.src then d else d.clkSwitch true

/-- R34, in OPERATE, RESTORE or SAFEHOLD; an entry to OPERATE in progress ends without effect (R634). -/
def Dev.refclkReact (d : Dev) : Dev :=
  let d1 := (d.refclkReport.closePath 3).refclkSwitch
  ({ d1 with ctl := { d1.ctl with entry := none, entrySwitching := false } }.onPoint1 true).refclkGone

/-- The reaction to the loss of REFCLK in every mode. -/
def Dev.refclkLoss (d : Dev) : Dev :=
  match d.ctl.mode with
  | .operate => d.refclkReact
  | .restore => d.refclkReact
  | .safehold => d.refclkReact
  | .save =>
    (match d.ctl.entry with
     | some _ => if d.ctl.resetLatched then (d.refclkReport.refclkGone).coldReset 2 else d.resume.refclkReact
     | none => d.refclkReport.refclkGone)
  | .startup => if d.clk.pllLocked then (d.refclkReport.refclkSwitch).refclkGone else d.refclkGone
  | .unpowered => d

/-- REFCLK_LOST (R32, R34). -/
def execRefclkLost (s : State) : Out := .next (happen s (fun d => if d.clk.refGood then d.refclkLoss else d))

/-- REFCLK becomes good: reported at any time while CLK_SRC = 1 and during a switch to HOSC (R35). Past WAIT_REFCLK the fabric PLL
relocks (R244). -/
def execRefclkBack (s : State) : Out :=
  .next (happen s (fun d =>
    if d.clk.refGood then d
    else
      let past := !(d.ctl.mode = .startup && d.ctl.step.code < 4) && !(d.ctl.mode = .startup && d.ctl.step = .halted)
      let d1 := { d with clk := { d.clk with refGood := true, pllLocked := past } }
      let d2 := if d.clk.src || (d.clk.switching && d.clk.target) then d1.emit 0x0141 (bit d.clk.switching 0) else d1
      (d2.portWake .fa).portWake .fb))

/-- The end of WAIT_REFCLK: the DRAM step begins (Table 2.2). -/
def Dev.beginDram (d : Dev) : Dev :=
  { d with ctl := { d.ctl with step := .dram }, mc := d.mc.map (fun (c : Mc) => { c with stage := 1 }) }

/-- A switch ends (R33). In SAVE before its end it has gone to HOSC, or goes there next; the ranks stay in self-refresh for the rate
change (R542). In WAIT_REFCLK one to REFCLK ends the step, unless the reference is lost again. Elsewhere the ranks leave
self-refresh: a switch to REFCLK for an entry to OPERATE is followed by its retraining; an entry that waited for a switch to HOSC
starts its own; one to REFCLK whose reference was lost is followed by one to HOSC (R634). -/
def Dev.clkSwitched (d : Dev) : Dev :=
  let d1 := { d with clk := { d.clk with switching := false, src := d.clk.target } }
  if d.ctl.mode = .save && d.ctl.entry.isNone then
    (if d.sav.phase = 1 then (if d.clk.target then d1.savePortsDown else d1.clkSwitch true)
     else d1.allWake)
  else if d.inWaitRefclk then (if d.clk.target then d1 else if d.clk.refGood && d.clk.pllLocked then d1.beginDram else d1.clkSwitch true)
  else if d.clk.target then (if d.ctl.entry.isSome && d.clk.refGood then d1.clkSwitch false else d1.allWake)
  else if d.ctl.entry.isSome then (({ d1 with ctl := { d1.ctl with entrySwitching := false } }).onPoint1 false).allWake
  else if !d.clk.refGood || d.ctl.pathCause = 3 then d1.clkSwitch true
  else d1.allWake

/-- CLK_SWITCH_DONE. -/
def execClkSwitchDone (s : State) : Out := .next (happen s (fun d => if d.clk.switching then d.clkSwitched else d))

/-! ### Port resets (R39 to R41, R206) -/

/-- FRESET_ASSERT: ignored in reset, CONFIG and SAVE (Table 3.10); the level holds the port in DISABLED afterwards. -/
def execFresetAssert (port : Port) (s : State) : Out :=
  .next (happenAny s (fun d =>
    let d1 := d.onPort port (fun f => { f with fresetLow := true })
    if d.alive && d.ctl.mode ≠ .save then d1.portFall port 0 else d1))

/-- FRESET_RELEASE. -/
def execFresetRelease (port : Port) (s : State) : Out :=
  .next (happenAny s (fun d =>
    let d1 := d.onPort port (fun f => { f with fresetLow := false })
    if d.alive then d1.portWake port else d1))

/-! ### The DRAM step (R303 to R310) -/

/-- A channel goes offline at a stage (R307, R308). -/
def Dev.dramOffline (d : Dev) (c stage : Nat) : Dev :=
  let d1 := d.onChan c (fun m => { m with
    offline := true, trained := false, stage := 7, selfRefresh := false, openRows := []
    owed := [0, 0, 0, 0], overdue := [0, 0, 0, 0], bankDone := [0, 0, 0, 0], forced := [false, false, false, false] })
  ((d1.emit 0x0800 (d1.geometryParam c 2)).emit 0x0801 (packBytes [(1, c), (1, stage)])).latchCause 1

/-- Whether every used channel that is not offline is past a stage. -/
def Dev.allPast (d : Dev) (stage : Nat) : Bool := d.mc.all (fun m => !m.used || m.offline || stage < m.stage)

/-- The end of stage 1 on the last channel: the set of used channels (R75). -/
def Dev.channelSet (d : Dev) : Dev :=
  if d.mc.any (fun m => m.stage = 1) then d
  else
    let set := (List.range 4).foldl (fun acc c => acc + bit (d.chan c).used c) 0
    if set = 1 || set = 3 || set = 15 then { d with dcfg := { d.dcfg with chUsed := BitVec.ofNat 4 set } }
    else
      let d1 := { d with
        dcfg := { d.dcfg with chUsed := 0 }
        ctl := { d.ctl with causeFixed := true }
        mc := d.mc.map (fun (m : Mc) => { m with used := false, stage := 7 }) }
      d1.latchCause 1

/-- Stage 1 (R74). -/
def Dev.stageRzq (d : Dev) (c ohms : Nat) : Dev :=
  if ohms < 24 then (d.onChan c (fun m => { m with used := false, stage := 7 })).channelSet
  else if 216 ≤ ohms && ohms ≤ 264 then (d.onChan c (fun m => { m with used := true, stage := 2 })).channelSet
  else
    let d1 := d.onChan c (fun m => { m with used := false, stage := 7 })
    ({ d1 with ctl := { d1.ctl with causeFixed := true } }.latchCause 1).channelSet

/-- The number of contiguous ranks a mask gives, or none (Table 9.3 stage 3). -/
def ranksOf (m : BitVec 4) : Option Nat :=
  if m = 1 then some 1 else if m = 3 then some 2 else if m = 7 then some 3 else if m = 15 then some 4 else none

/-- The reduction of OP_RATE once every used channel has completed stage 3 (R305). A channel that stage 3 failed holds no ranks and
takes no part. -/
def Dev.rateCheck (d : Dev) : Dev :=
  if d.allPast 3 && 1 < d.dcfg.opRate.toNat && d.mc.any (fun m => m.used && 2 ≤ m.ranks.toNat) then
    { d with dcfg := { d.dcfg with opRate := 1, opReduced := true } }
  else d

/-- The density a probe concludes (Table 9.4); markers A to E are 1 to 5. -/
def densityOf (r1 r2 r3 r4 r5 r6 : Nat) : Option (BitVec 2) :=
  if r1 = 2 then some 0
  else if r2 = 3 then (if r3 = 4 && r4 = 3 && r5 = 2 then some 2 else some 1)
  else if r2 = 1 && r6 = 5 then some 3
  else none

/-- The reference channel: the lowest-numbered used channel that completed stage 5, offline by now or not (R306). -/
def Dev.findReference (d : Dev) : Option Nat :=
  match d.dcfg.reference with
  | some c => some c
  | none => (List.range 4).find? (fun c => (d.chan c).used && (d.chan c).probed)

/-- Table 9.1 at an OPERATE rate: at most 2 ranks of 64 Gb devices, and 3 or 4 ranks at 4800 or 5600 MT/s only. -/
def tableOk (m : Mc) (rate : BitVec 2) : Bool := (m.density ≠ 3 || m.ranks.toNat ≤ 1) && (m.ranks.toNat ≤ 1 || rate.toNat ≤ 1)

/-- Stage 6 (Table 9.1, R306, R308). -/
def Dev.stageCheck (d : Dev) (c : Nat) : Dev :=
  let ref := d.findReference
  let d1 := { d with dcfg := { d.dcfg with reference := ref } }
  let m := d1.chan c
  let r := d1.chan (ref.getD c)
  if m.ranks = r.ranks && m.density = r.density && tableOk m d.dcfg.opRate then
    let d2 := d1.onChan c (fun m => { m with stage := 7 })
    d2.emit 0x0800 (d2.geometryParam c (bit d2.dcfg.opReduced 0))
  else d1.dramOffline c 6

/-- The training commands of a channel as its record keeps them: mode-register writes, the writes and reads of the pattern, and the
precharge that ends them (Table 10.3; log entry 60). -/
def Mc.trainLog (m : Mc) : Mc :=
  m.rankList.foldl (fun m r =>
    let here := fun (cmd row column : Nat) => cmdRecord cmd r 7 3 false row column 22
    let pairs := (List.range 29).flatMap (fun k => [here 3 0 (35 + k), here 2 0 (35 + k)])
    (((pairs.foldl (fun (m : Mc) p => m.log p) (((m.own 14 r).own 11 r).log (here 1 (2 ^ 18 - 1) 0))).own 5 r).own 11 r)) m

/-- Stages 2 to 5 of Table 9.3 on one channel with what each found: whether the stage succeeds, and the channel after it; none for
an outcome of another stage (R303, R304, R343). -/
def mcStage (m : Mc) (o : DramOutcome) (temp : Int) : Option (Bool × Mc) :=
  match o, m.stage with
  | .init ok drfm rfm, 2 => some (ok, { (m.own 14 0).own 11 0 with drfm := drfm, rfm := rfm, onPoint1 := true, stage := if ok then 3 else 2 })
  | .ranks present, 3 =>
    match ranksOf present with
    | some n => some (true, { m with ranks := BitVec.ofNat 2 (n - 1), stage := 4, point1Done := false })
    | none => some (false, m)
  | .trainSave sweep, 4 =>
    if m.point1Done then none
    else
      let k := (m.trainPoint 1 sweep).trainLog
      some (pointValid k.train 1, { k with point1Done := true })
  | .trainOperate sweep, 4 =>
    if !m.point1Done then none
    else
      let k := (m.trainPoint 0 sweep).trainLog
      let ok := pointValid k.train 0
      some (ok, if ok then { k with trained := true, stage := 5, passTemp := temp } else k)
  | .probe r1 r2 r3 r4 r5 r6, 5 =>
    match densityOf r1 r2 r3 r4 r5 r6 with
    | some k => some (true, { m with density := k, probed := true, stage := 6 })
    | none => some (false, m)
  | _, _ => none

/-- A stage of a channel ends with what it found. Stage 2 waits for stage 1, point 0 of stage 4 for stage 3 and stage 6 for stage 5
of every channel; point 0 is trained at the OPERATE rate, which the channel changes to in self-refresh (R303 to R306, R343). -/
def Dev.dramStage (d : Dev) (c : Nat) (o : DramOutcome) : Dev :=
  match o, (d.chan c).stage with
  | .rzq ohms, 1 => d.stageRzq c ohms
  | .check, 6 => if d.allPast 5 then d.stageCheck c else d
  | _, _ =>
    let point0 := match o with | .trainOperate _ => (d.chan c).stage = 4 && (d.chan c).point1Done | _ => false
    if (match o with | .init _ _ _ => d.mc.any (fun m => m.stage = 1) | _ => false) || (point0 && !d.allPast 3) then d
    else
      let d1 := if point0 then d.chanRate c false else d
      match mcStage (d1.chan c) o d.therm.tDie with
      | none => d
      | some (ok, m) =>
        let d2 := d1.onChan c (fun _ => m)
        if ok then d2 else d2.dramOffline c m.stage

/-- Capacities from the reference channel (R309, R310); 0 with none. -/
def Dev.capacities (d : Dev) : Dev :=
  match d.dcfg.reference with
  | none => { d with dcfg := { d.dcfg with installedMib := 0, visibleMib := 0, keeperMib := 0, granules := 0 } }
  | some _ =>
    let (ranks, density) := d.geometry
    let mib := d.usedChannels.length * ranks * rankBytes density / 2 ^ 20
    { d with dcfg := { d.dcfg with
        installedMib := BitVec.ofNat 32 mib, keeperMib := BitVec.ofNat 32 (keeperOf mib)
        visibleMib := BitVec.ofNat 32 (mib - keeperOf mib), granules := BitVec.ofNat 32 ((mib - keeperOf mib) * 16) } }

/-- INTLV_WAYS reduced to the code of the used-channel count (R312). -/
def Dev.reduceWays (d : Dev) : Dev :=
  let code := waysOf d.usedChannels.length
  if d.dcfg.chUsed ≠ 0 && code < d.dcfg.ways.toNat then { d with dcfg := { d.dcfg with ways := BitVec.ofNat 2 code } } else d

/-- A channel's YOKE window starts with the settings then in force. -/
def yokeRestart (m : Mc) : Mc := { m with yokeOn := m.yokeEn, yokeThreshNow := m.yokeThresh, yokeCounts := [], yokeHeld := [] }

/-- The end of the DRAM step (Table 2.2, R424). -/
def Dev.dramEnd (d : Dev) : Dev :=
  let d1 := d.capacities.reduceWays
  { d1 with
    ctl := { d1.ctl with step := .image }
    img := { d1.img with stage := 1, deferred := d1.dcfg.reference.isNone || d1.mc.any (fun m => m.used && m.offline) }
    mc := d1.mc.map (fun m => yokeRestart { m with pointerFb := false }) }

/-- What follows a stage: the rate check and, with every channel done, the end of the step. -/
def Dev.dramSettle (d : Dev) : Dev :=
  let d1 := d.rateCheck
  if d1.mc.all (fun m => m.stage = 7) then
    let r := d1.findReference
    let m := d1.chan (r.getD 0)
    { d1 with dcfg := { d1.dcfg with reference := r, refRanks := if r.isSome then m.ranks else 0, refDensity := if r.isSome then m.density else 0 } }.dramEnd
  else d1

/-- The DRAM step is running. -/
def Dev.inDramStep (d : Dev) : Bool := d.ctl.mode = .startup && d.ctl.step = .dram && !d.startupHeld && !d.shutting

/-- DRAM_STAGE_DONE. -/
def execDramStageDone (channel : Nat) (outcome : DramOutcome) (s : State) : Out :=
  .next (happen s (fun d => if d.inDramStep then (d.dramStage channel outcome).dramSettle else d))

end Sys2Proof.Machine
end

