-- ==== Sys2Proof/Machine/Dram.lean ====
section
/-! DEFINITION. A DRAM channel at work: the command slot with the queue, the scheduler, the row policy, COIN, YOKE and the ECC of
each burst; refresh, MR4, row close, parity, the keeper copy of a capture and CHANNEL_THAW (chapters 9 and 10). -/
namespace Sys2Proof.Machine
open Sys2Proof

/-! ### Bursts: keys and the codeword (R366 to R371, R441) -/

/-- The key a burst was last written under; none since the zero fill. -/
def Dev.tagOf (d : Dev) (burst : Nat) : Option Nat := (d.cip.burstKeys.find? (fun p => p.1 = burst)).map (·.2)

/-- Bytes as a key writes them to DRAM: XTS-AES-256 under the key of a draw, the data unit being the burst; 0 is no key. -/
def xtsIn (key burst : Nat) (bytes : List Byte) : List Byte := if key = 0 then bytes else xtsEncrypt (Config.entropy key) burst bytes

/-- Bytes of DRAM as a key reads them. -/
def xtsOut (key burst : Nat) (raw : List Byte) : List Byte := if key = 0 then raw else xtsDecrypt (Config.entropy key) burst raw

/-- The bytes of a burst as its key leaves them. -/
def Dev.stored (d : Dev) (burst : Nat) : List Byte := memBytes d.mem (burst * 64) 64

/-- The bytes of a burst as DRAM holds them: ciphertext under a key. -/
def Dev.rawBytes (d : Dev) (burst : Nat) : List Byte :=
  match d.tagOf burst with
  | some k => xtsIn k burst (d.stored burst)
  | none => d.stored burst

/-- The bytes of a burst as an access under a key reads them. -/
def Dev.readUnder (d : Dev) (key burst : Nat) : List Byte :=
  match d.tagOf burst with
  | some k => if k = key then d.stored burst else xtsOut key burst (xtsIn k burst (d.stored burst))
  | none => d.stored burst

/-- What a read of a codeword gives. -/
inductive Got where
  /-- The data, the symbols corrected, and the raw bytes where the correction went to another codeword. -/
  | ok (data : List Byte) (n : Nat) (wrong : Option (List Byte))
  /-- No codeword within 8 symbols: the codeword as read, and the data as decoded. -/
  | bad (codeword data : List Byte)
  deriving DecidableEq, Repr

/-- A codeword with symbol errors. -/
def withErrors (cw : List Byte) (errors : List (Nat × Byte)) : List Byte :=
  errors.foldl (fun l e => listUpd l e.1 (fun b => b ^^^ e.2)) cw

/-- Read a burst under a key, with the errors its codeword carries (R368). -/
def Dev.readBurst (d : Dev) (key burst : Nat) (errors : List (Nat × Byte)) : Got :=
  if errors.isEmpty then .ok (d.readUnder key burst) 0 none
  else
    let raw := d.rawBytes burst
    let cw := withErrors (rsCodeword raw) errors
    match rsDecode cw with
    | none => .bad cw (xtsOut key burst (rsBytes cw))
    | some (fixed, n) =>
      if rsBytes fixed = raw then .ok (d.readUnder key burst) n none
      else .ok (xtsOut key burst (rsBytes fixed)) n (some (rsBytes fixed))

/-- A burst has been written whole under a key. -/
def Dev.writeBurst (d : Dev) (key burst : Nat) (data : List Byte) : Dev :=
  ({ d with cip := { d.cip with burstKeys := d.cip.burstKeys.filter (fun (p : Nat × Nat) => p.1 ≠ burst) ++ [(burst, key)] } }).pokeMasked
    (burst * 64) (BitVec.allOnes 64) data

/-- CORRECTED and ECC_HEAVY (R370). -/
def Dev.counted (d : Dev) (c burst n : Nat) : Dev :=
  if n = 0 then d
  else
    let d1 := d.onChan c (fun m => { m with corrected := satInc m.corrected })
    let waits := d.eu.queue.any (fun e => e.code = 0x0813 && e.param.toNat / 2 ^ 16 = c)
    if n < 5 || waits then d1 else d1.emit 0x0813 (packBytes [(1, c), (1, (d.locate (burst * 64)).rank), (1, n)])

/-- The bytes of a masked write over what the burst held. -/
def mergeBytes (mask : BitVec 64) (data old : List Byte) : List Byte :=
  (List.range 64).map (fun i => if mask.getLsbD i then data.getD i 0 else old.getD i 0)

/-- The non-zero bytes of a burst as cells at its device address. -/
def cellsOf (burst : Nat) (data : List Byte) : List Host.Cell :=
  (data.zipIdx.filter (fun (p : Byte × Nat) => p.1 ≠ 0)).map (fun (p : Byte × Nat) => (burst * 64 + p.2, p.1))

/-! ### Column commands by their owner -/

/-- Change an admitted request. -/
def Dev.onReq (d : Dev) (p : Port) (id : Nat) (f : FReq → FReq) : Dev :=
  d.onPort p (fun k => { k with inflight := k.inflight.map (fun (r : FReq) => if r.id = id then f r else r) })

/-- A burst of a request is done; with its last one the code is decided (Table 7.8 step 6). -/
def reqBurst (data : List Byte) (r : FReq) : FReq :=
  { r with
    left := r.left - 1, data := r.data ++ data
    code := if r.left ≤ 1 && r.code.isNone then some (if r.poisoned && r.req.isRead then 3 else 0) else r.code }

/-- The granule of a request is judged at its first column command (R457). -/
def Dev.reqBegin (d : Dev) (p : Port) (id : Nat) : Dev :=
  d.onReq p id (fun r => if r.begun then r else { r with begun := true, poisoned := r.poisoned || d.poisoned r.req.granule })

/-- A codeword of a request is uncorrectable (R373, R376): CHANNEL_FROZEN, or in SAVE a poisoned read that goes on. -/
def Dev.reqBad (d : Dev) (c : Nat) (p : Port) (id : Nat) (e : QEntry) (cw data : List Byte) : Dev :=
  let d1 := d.uncorrectableAt c e.who e.burst cw
  if d.ctl.mode = .save then d1.onReq p id (fun r => reqBurst data { r with poisoned := true })
  else d1.onReq p id (fun r => { r with code := some 2 })

/-- A fabric read. -/
def Dev.fabricRead (d : Dev) (c : Nat) (p : Port) (id : Nat) (e : QEntry) (errors : List (Nat × Byte)) : Dev :=
  let d0 := d.reqBegin p id
  match d0.readBurst (d0.xtsKey e.domain e.burst) e.burst errors with
  | .ok data n _ => (d0.counted c e.burst n).onReq p id (reqBurst data)
  | .bad cw data => d0.reqBad c p id e cw data

/-- A fabric write of the bytes of `mask` is applied: R407 and R458. -/
def Dev.applyWrite (d : Dev) (key : Nat) (e : QEntry) (mask : BitVec 64) (bytes : List Byte) : Dev :=
  if mask = 0 then d
  else
    let d1 := (d.writeBurst key e.burst bytes).setDirty (e.burst / 1024)
    if mask = BitVec.allOnes 64 then d1.cover e.burst else d1

/-- A fabric write; a partial mask is merged with the burst in one read and write pair (R319). In SAVE a merge over an
uncorrectable codeword keeps the bytes as decoded. -/
def Dev.fabricWrite (d : Dev) (c : Nat) (p : Port) (id : Nat) (e : QEntry) (mask : BitVec 64) (data : List Byte)
    (errors : List (Nat × Byte)) : Dev :=
  let d0 := d.reqBegin p id
  let key := d0.xtsKey e.domain e.burst
  if mask = BitVec.allOnes 64 then (d0.applyWrite key e mask data).onReq p id (reqBurst [])
  else match d0.readBurst key e.burst errors with
    | .ok old n _ => ((d0.counted c e.burst n).applyWrite key e mask (mergeBytes mask data old)).onReq p id (reqBurst [])
    | .bad cw old =>
      if d.ctl.mode = .save then
        ((d0.uncorrectableAt c e.who e.burst cw).applyWrite key e mask (mergeBytes mask data old)).onReq p id (reqBurst [])
      else d0.reqBad c p id e cw old

/-- Change the job of an engine. -/
def Dev.onJob (d : Dev) (n : Nat) (f : Job → Job) : Dev := d.onEngine n (fun c => { c with job := c.job.map f })

/-- A burst of a job is done. -/
def jobBurst (cells : List Host.Cell) (j : Job) : Job := { j with queued := j.queued - 1, buffer := j.buffer ++ cells }

/-- A codeword of a chunk is uncorrectable: the chunk stops (R281). -/
def Dev.engineBad (d : Dev) (c n : Nat) (e : QEntry) (cw : List Byte) : Dev :=
  (d.uncorrectableAt c e.who e.burst cw).onJob n (fun j => { j with reads := [], writes := [], queued := j.queued - 1, stopped := true })

/-- A read of a chunk. -/
def Dev.engineRead (d : Dev) (c n : Nat) (e : QEntry) (errors : List (Nat × Byte)) : Dev :=
  match d.readBurst (d.xtsKey e.domain e.burst) e.burst errors with
  | .ok data k _ => (d.counted c e.burst k).onJob n (jobBurst (cellsOf e.burst data))
  | .bad cw _ => d.engineBad c n e cw

/-- A SCRUB of a burst: a corrected codeword is written back as corrected (R371). -/
def Dev.engineScrub (d : Dev) (c n : Nat) (e : QEntry) (errors : List (Nat × Byte)) : Dev :=
  match d.readBurst (d.xtsKey e.domain e.burst) e.burst errors with
  | .ok _ k wrong =>
    let tag := (d.tagOf e.burst).getD 0
    let d1 := match wrong with
      | some raw => d.writeBurst tag e.burst (xtsOut tag e.burst raw)
      | none => d
    (d1.counted c e.burst k).onJob n (jobBurst [])
  | .bad cw _ => d.engineBad c n e cw

/-- A write of a chunk: dirty unless a ZERO chunk covers the granule whole (R275, R407). -/
def Dev.engineWrite (d : Dev) (n : Nat) (e : QEntry) (data : List Byte) : Dev :=
  let g := e.burst / 1024
  let whole := match (d.engine n).run with | some x => x.chunkWhole (d.engine n).runChunk.toNat g | none => false
  let d1 := d.writeBurst (d.xtsKey e.domain e.burst) e.burst data
  ((if whole then d1 else d1.setDirty g).cover e.burst).onJob n (jobBurst [])

/-- The key of an access by Mule, Goat or a restore: the domain in force (R441). -/
def Dev.ownKey (d : Dev) (burst : Nat) : Nat := d.xtsKey (domainIn d.attrs (burst / 1024)) burst

/-- The reads of a copy may have ended. -/
def Dev.copyDone (d : Dev) (id : Nat) : Dev :=
  match d.img.copies.find? (fun k => k.id = id) with
  | some k => match k.job with
    | some j => if j.reads.isEmpty && j.queued = 0 && !j.stopped then d.copyRead k j else d
    | none => d
  | none => d

/-- A read of a copy: Mule takes the granule at the first (R409). In SAVE an uncorrectable codeword taints the copy, which holds
the bytes as decoded (R548); elsewhere the copy is abandoned. -/
def Dev.muleRead (d : Dev) (c id : Nat) (e : QEntry) (errors : List (Nat × Byte)) : Dev :=
  let d0 := d.takeCopy id
  let onJob := fun (d : Dev) (f : Job → Job) => d.onCopy id (fun k => { k with job := k.job.map f })
  match d0.readBurst (d0.ownKey e.burst) e.burst errors with
  | .ok data n _ => (onJob (d0.counted c e.burst n) (jobBurst (cellsOf e.burst data))).copyDone id
  | .bad cw data =>
    let d1 := d0.uncorrectableAt c e.who e.burst cw
    if d.ctl.mode = .save then (onJob d1 (fun j => jobBurst (cellsOf e.burst data) { j with tainted := true })).copyDone id
    else onJob d1 (fun j => { j with reads := [], queued := 0, stopped := true })

/-- A granule has been restored (R570, R593). -/
def Dev.granuleRestored (d : Dev) (g : Nat) : Dev :=
  let d1 := { d with rst := { d.rst with
    unrestored := d.rst.unrestored.filter (· ≠ g), demand := d.rst.demand.filter (· ≠ g)
    flight := d.rst.flight.filter (fun r => r.granule ≠ g) } }
  let tenth := if d1.rst.total = 0 then 10 else d1.restored * 10 / d1.rst.total
  if d1.rst.nextTenth ≤ tenth && tenth ≤ 9 then
    ({ d1 with rst := { d1.rst with nextTenth := tenth + 1 } }).emit 0x0122 (packBytes [(1, 10 * tenth), (4, d1.restored)])
  else d1

/-- A restore write: the first of a sector delivers it, with its verdict pending (R454). -/
def Dev.restoreWrite (d : Dev) (g : Nat) (e : QEntry) : Dev :=
  match d.rst.flight.find? (fun r => r.granule = g) with
  | none => d
  | some r =>
    let s := e.burst % 1024 / 64
    let deliver := !d.cip.verifyFirst && r.unjudged.contains s
    let data := memBytes r.data (e.burst % 1024 * 64) 64
    let d1 := d.writeBurst (d.ownKey e.burst) e.burst data
    let f := fun (k : RGran) => if k.granule = g then
        { k with begun := true, job := k.job.map (jobBurst []), unjudged := if deliver then k.unjudged.filter (· ≠ s) else k.unjudged }
      else k
    let d2 := { d1 with rst := { d1.rst with
      flight := d1.rst.flight.map f
      verdicts := if deliver then d1.rst.verdicts ++ [{ granule := g, sector := s, pass := !r.forged.contains s }] else d1.rst.verdicts } }
    match r.job with
    | some j => if j.writes.isEmpty && j.queued ≤ 1 then d2.granuleRestored g else d2
    | none => d2

/-- A burst of the unit that Goat is re-keying: read under the old key, written under the new (R448); one that cannot be read
waits for the thaw. -/
def Dev.goatAccess (d : Dev) (c : Nat) (e : QEntry) (errors : List (Nat × Byte)) : Dev :=
  let k := match d.cip.goat with | some g => g.target | none => 0
  match d.readBurst (d.xtsKey (BitVec.ofNat 3 k) e.burst) e.burst errors with
  | .ok data n _ => ((d.counted c e.burst n).writeBurst (d.cip.domKey.getD (k - 1) 0) e.burst data).goatBurst e.burst
  | .bad cw _ =>
    let d1 := d.uncorrectableAt c e.who e.burst cw
    { d1 with cip := { d1.cip with goat := d1.cip.goat.map (fun g =>
      { g with job := g.job.map (fun j => { j with writes := e.burst :: j.writes, queued := j.queued - 1 }) }) } }

/-- The column command of an entry. -/
def Dev.column (d : Dev) (c : Nat) (e : QEntry) (errors : List (Nat × Byte)) : Dev :=
  match e.owner, e.access with
  | .fabric p id, .write mask data => d.fabricWrite c p id e mask data errors
  | .fabric p id, _ => d.fabricRead c p id e errors
  | .engine n, .write _ data => d.engineWrite n e data
  | .engine n, .scrub => d.engineScrub c n e errors
  | .engine n, _ => d.engineRead c n e errors
  | .mule k, _ => d.muleRead c k e errors
  | .restore g, _ => d.restoreWrite g e
  | .goat, _ => d.goatAccess c e errors

/-! ### Entries join the queue (R315, R320, R321, R364) -/

/-- Entries of fabric and engines, and of one requester. -/
def Mc.portEntries (m : Mc) : Nat := (m.queue.filter (fun e => e.who < 20)).length
/-- Entries of one requester. -/
def Mc.entriesOf (m : Mc) (who : Nat) : Nat := (m.queue.filter (fun e => e.who = who)).length
/-- A requester is held on a bank of the channel. -/
def Mc.holds (m : Mc) (who : Nat) : Bool := m.yokeHeld.any (fun h => h.1 = who)
/-- Room for `n` more entries of a fabric source or engine. -/
def Mc.room (m : Mc) (who n : Nat) : Bool :=
  m.queue.length + n ≤ 64 && m.portEntries + n ≤ 56 && (!m.holds who || m.entriesOf who + n ≤ 8)

/-- An entry joins the queue of channel `c`. -/
def Dev.enter (d : Dev) (c : Nat) (owner : Owner) (who burst : Nat) (access : Access) (domain : BitVec 3) (keepOpen : Bool) : Dev :=
  d.onChan c (fun m => { m with
    nextId := m.nextId + 1
    queue := m.queue ++ [{ id := m.nextId, owner := owner, who := who, burst := burst, access := access, domain := domain, keepOpen := keepOpen }] })

/-- Whether a later burst of a list lies in the same row of the same bank (R323). -/
def Dev.rowAgain (d : Dev) (burst : Nat) (rest : List Nat) : Bool :=
  let l := d.locate (burst * 64)
  rest.any (fun b => decide ({ d.locate (b * 64) with column := 0 } = { l with column := 0 }))

/-- An engine's next access on channel `c` joins the queue: its reads, and with all of them done its writes (R277). -/
def Dev.engineEnter (d : Dev) (c n : Nat) : Dev :=
  let who := 16 + n
  match (d.engine n).run, (d.engine n).job with
  | some x, some j =>
    if j.stopped || !(d.chan c).room who 1 then d
    else match j.reads.find? (fun b => d.channelOf b = c) with
    | some b =>
      let rest := j.reads.filter (· ≠ b)
      (d.onJob n (fun j => { j with reads := rest, queued := j.queued + 1 })).enter c (.engine n) who b
        (if x.op = 4 then .scrub else .read) (domainIn (d.engine n).jobAttrs (b / 1024)) (d.rowAgain b rest)
    | none =>
      let reading := !j.reads.isEmpty || d.mc.any (fun m => m.queue.any (fun e => e.owner = .engine n && e.access = .read))
      match j.writes.find? (fun b => d.channelOf b = c) with
      | some b =>
        if reading then d
        else
          let rest := j.writes.filter (· ≠ b)
          let data := (List.range 64).map (fun i => x.byteAt j.buffer (b * 64 + i - x.dst))
          (d.onJob n (fun j => { j with writes := rest, queued := j.queued + 1 })).enter c (.engine n) who b
            (.write (BitVec.allOnes 64) data) (domainIn (d.engine n).jobAttrs (b / 1024)) (d.rowAgain b rest)
      | none => d
  | _, _ => d

/-- The accesses of a port's engines to channel `c`, in engine-number order (R269, R320). -/
def Dev.enginesEnter (d : Dev) (c : Nat) (p : Port) : Dev :=
  (match p with | .fa => [0, 1] | .fb => [2, 3]).foldl (fun (d : Dev) n => d.engineEnter c n) d

/-- Entries of both ports join the queue of channel `c` in one cycle: those of the port that the pointer names first, then the
other's; the pointer moves when it has decided an order (R320, R321). `turn` enters one port's. -/
def Dev.portsTurn (d : Dev) (c : Nat) (turn : Port → Dev → Dev) : Dev :=
  let fb := (d.chan c).pointerFb
  let d1 := turn (if fb then .fb else .fa) d
  let d2 := turn (if fb then .fa else .fb) d1
  if (d.chan c).nextId < (d1.chan c).nextId && (d1.chan c).nextId < (d2.chan c).nextId then
    d2.onChan c (fun m => { m with pointerFb := !m.pointerFb })
  else d2

/-- The engines of both ports. -/
def Dev.portsEnter (d : Dev) (c : Nat) : Dev := d.portsTurn c (fun p d => d.enginesEnter c p)

/-- Mule's next access on channel `c`: a copy's read, or a restore's write. -/
def Dev.muleEnter (d : Dev) (c : Nat) : Dev :=
  if 64 ≤ (d.chan c).queue.length || (d.chan c).fullTrain || (d.ctl.mode = .save && d.sav.abandoned) then d
  else
    let next := fun (o : Option Job) (w : Bool) => match o with
      | some j => (if w then j.writes else j.reads).find? (fun b => d.channelOf b = c)
      | none => none
    match d.img.copies.find? (fun k => (next k.job false).isSome) with
    | some k =>
      (match next k.job false with
       | some b =>
        let rest := match k.job with | some j => j.reads.filter (· ≠ b) | none => []
        (d.onCopy k.id (fun k => { k with job := k.job.map (fun j => { j with reads := rest, queued := j.queued + 1 }) })).enter c (.mule k.id) 20 b
          .read 0 (d.rowAgain b rest)
       | none => d)
    | none =>
      match d.rst.flight.find? (fun r => (next r.job true).isSome) with
      | some r =>
        (match next r.job true with
         | some b =>
          let rest := match r.job with | some j => j.writes.filter (· ≠ b) | none => []
          let f := fun (k : RGran) => if k.granule = r.granule then
            { k with job := k.job.map (fun j => { j with writes := rest, queued := j.queued + 1 }) } else k
          ({ d with rst := { d.rst with flight := d.rst.flight.map f } }).enter c (.restore r.granule) 20 b
            (.write (BitVec.allOnes 64) []) 0 (d.rowAgain b rest)
         | none => d)
      | none => d

/-- Goat's next access on channel `c`. -/
def Dev.goatEnter (d : Dev) (c : Nat) : Dev :=
  if 64 ≤ (d.chan c).queue.length || (d.chan c).fullTrain || d.ctl.mode ≠ .operate then d
  else match d.cip.goat with
    | some g =>
      (match g.job with
       | some j =>
        (match j.writes.find? (fun b => d.channelOf b = c) with
         | some b =>
          let rest := j.writes.filter (· ≠ b)
          ({ d with cip := { d.cip with goat := some { g with job := some { j with writes := rest, queued := j.queued + 1 } } } }).enter c .goat 21 b
            .rekey 0 (d.rowAgain b rest)
         | none => d)
       | none => d)
    | none => d

/-! ### The scheduler (R317, R318, R325 to R327, R363) -/

/-- What a burst counts as in the share window: 1 trickle, 2 Goat, which reads what its image re-key copies too, 0 anything else
(R325, R327, R450). -/
def Dev.shareKind (d : Dev) (e : QEntry) : Nat :=
  match e.owner with
  | .mule k =>
    if d.ctl.mode ≠ .operate then 0
    else if d.img.copies.any (fun c => c.id = k && c.purpose = 0) then 1
    else if d.img.copies.any (fun c => c.id = k && c.purpose = 4) then 2
    else 0
  | .goat => 2
  | _ => 0

/-- A capped requester is within its share. -/
def Dev.withinShare (d : Dev) (m : Mc) (kind : Nat) : Bool :=
  kind = 0 || (m.window.filter (· = kind)).length < 256 * (if kind = 1 then d.img.trickleShare.toNat else d.cip.rekeyShare.toNat) / 100

/-- The open row of the bank of a location. -/
def Mc.rowAt (m : Mc) (l : Loc) : Option OpenRow := m.openRows.find? (fun o => o.rank = l.rank && o.bg = l.bg && o.bank = l.bank)

/-- A location's row is open. -/
def Mc.hit (m : Mc) (l : Loc) : Bool := match m.rowAt l with | some o => o.row = l.row | none => false

/-- An entry may issue its next command, its share apart (R317). -/
def Dev.canIssue (d : Dev) (m : Mc) (input : SlotInput) (e : QEntry) : Bool :=
  let l := d.locate (e.burst * 64)
  !input.blocked.contains e.id && !(m.forced.getD l.rank false)
    && (match m.queue.find? (fun k => k.who = e.who) with | some k => k.id = e.id | none => false)
    && !(m.yokeHeld.contains (e.who, l.rank, l.bg, l.bank) && !m.hit l)
    && !(d.ctl.mode = .save && d.sav.abandoned)
    && (e.who < 20 || !m.fullTrain) && (e.who ≠ 21 || (d.ctl.mode = .operate && !m.frozen))

/-- The eligible entries, oldest first (R317, R326). -/
def Dev.eligible (d : Dev) (m : Mc) (input : SlotInput) : List QEntry :=
  let e0 := m.queue.filter (d.canIssue m input)
  e0.filter (fun e => d.withinShare m (d.shareKind e) || !e0.any (fun k => k.who < 20))

/-- The entry a slot serves (R318). -/
def Dev.choose (d : Dev) (m : Mc) (e : List QEntry) : Option QEntry :=
  match e.find? (fun k => m.hit (d.locate (k.burst * 64))) with
  | none => e.head?
  | some r =>
    let l := d.locate (r.burst * 64)
    let ran : Bool := match m.rowAt l with | some o => decide (16 ≤ o.run) | none => false
    let other := e.find? (fun k => let lk := d.locate (k.burst * 64)
      k.id < r.id && lk.rank = l.rank && lk.bg = l.bg && lk.bank = l.bank && lk.row ≠ l.row)
    if ran then (match other with | some o => some o | none => some r) else some r

/-! ### The commands of a slot -/

/-- A command of a forced refresh: the rank's rows are closed, then REFab (R331). -/
def Dev.forcedRefresh (d : Dev) (c rank : Nat) : Dev :=
  if (d.chan c).openRows.any (fun o => o.rank = rank) then d.onChan c (fun m => m.closeRank rank)
  else (d.onChan c (fun m => (m.raaDown (fun r _ _ => r = rank)).own 6 rank)).payUnit c rank

/-- The rank and bank index of the next opportunistic REFsb, when no request is eligible (R330, R341). -/
def Dev.idleRefresh (d : Dev) (m : Mc) : Option (Nat × Nat) :=
  if d.ctl.mode = .save then none
  else (List.range 4).findSome? (fun r =>
    if 0 < m.owed.getD r 0 && m.owed.getD r 0 < d.forceAt then
      ((List.range 4).find? (fun b => !(m.bankDone.getD r 0).getLsbD b && !m.openRows.any (fun o => o.rank = r && o.bank = b))).map (fun b => (r, b))
    else none)

/-- That REFsb; the fourth bank index pays the unit. -/
def Dev.refreshBank (d : Dev) (c r b : Nat) : Dev :=
  let d1 := d.onChan c (fun m => ({ m.raaDown (fun k _ n => k = r && n = b) with
    bankDone := listUpd m.bankDone r (fun x => x ||| BitVec.ofNat 4 (2 ^ b)) }).log (cmdRecord 7 r 0 b false 0 0 22))
  if (d1.chan c).bankDone.getD r 0 = 15 then d1.payUnit c r else d1

/-- A hold begins (R363). -/
def Dev.yokeHold (d : Dev) (c who : Nat) (l : Loc) : Dev :=
  let d1 := d.onChan c (fun m => { m with yokeHeld := m.yokeHeld ++ [(who, l.rank, l.bg, l.bank)], yokeHolds := satInc m.yokeHolds })
  if d.eu.queue.any (fun e => e.code = 0x0816 && e.param.toNat / 2 ^ 24 = c * 256 + who) then d1
  else d1.emit 0x0816 (packBytes [(1, c), (1, who), (1, l.rank), (1, l.bg), (1, l.bank)])

/-- YOKE's count of an ACT (R362, R363). -/
def Dev.yokeCount (d : Dev) (c who : Nat) (l : Loc) : Dev :=
  let m := d.chan c
  if !m.yokeOn || 20 ≤ who || !(d.ctl.mode = .operate || d.ctl.mode = .restore) then d
  else
    let same := fun (k : Nat × Nat × Nat × Nat × Nat) => decide ((k.1, k.2.1, k.2.2.1, k.2.2.2.1) = (who, l.rank, l.bg, l.bank))
    let n := (match m.yokeCounts.find? same with | some k => k.2.2.2.2 | none => 0) + 1
    let d1 := d.onChan c (fun m => { m with yokeCounts := m.yokeCounts.filter (fun k => !same k) ++ [(who, l.rank, l.bg, l.bank, n)] })
    if n = m.yokeThreshNow.toNat then d1.yokeHold c who l else d1

/-- COIN selects the ACT when every drawn bit is 0 (R360). -/
def coinSelects (m : Mc) (draw : BitVec 16) : Bool := m.coinEn && draw.toNat % 2 ^ m.coinK.toNat = 0

/-- An ACT: it counts for COIN, for the devices' own need of refresh management, and for YOKE. -/
def Dev.activate (d : Dev) (c who : Nat) (l : Loc) (draw : BitVec 16) : Dev :=
  (d.onChan c (fun m => ({ m.raaUp l.rank l.bg l.bank with
    openRows := m.openRows ++ [({ rank := l.rank, bg := l.bg, bank := l.bank, row := l.row, run := 0 } : OpenRow)]
    coinOwed := if coinSelects m draw then m.coinOwed ++ [(l.rank, l.bg, l.bank)] else m.coinOwed }).log
      (cmdRecord 1 l.rank l.bg l.bank false l.row 0 who))).yokeCount c who l

/-- The refresh-management command owed to a bank (R360): DRFM where every device of the rank supports it, or RFMsb. -/
def mcManage (l : Loc) (m : Mc) : Mc :=
  let k := { m with coinOwed := m.coinOwed.filter (fun k => k ≠ (l.rank, l.bg, l.bank)), rfmIssued := m.rfmIssued + 1 }
  if m.drfm.getLsbD l.rank then k.log (cmdRecord 9 l.rank l.bg l.bank false 0 0 22) else k.manage l.rank l.bg l.bank

/-- The commands of a column access, 2 RD and 3 WR (R319, R371, R448): a masked write, a re-key, and a SCRUB that corrects are read and
write pairs, unless the codeword read is uncorrectable. `got` is the number of symbols corrected. -/
def columnCmds (e : QEntry) (got : Option Nat) (save : Bool) : List Nat :=
  match e.access with
  | .read => [2]
  | .write mask _ => if mask = BitVec.allOnes 64 then [3] else if got.isSome || save then [2, 3] else [2]
  | .rekey => if got.isSome then [2, 3] else [2]
  | .scrub => if 0 < got.getD 0 then [2, 3] else [2]

/-- The row after a column command (R322), the bursts in the share window (R325), the queue without the entry, and a record for each
command of it (R380). -/
def Mc.afterColumn (m : Mc) (e : QEntry) (l : Loc) (kind : Nat) (cmds : List Nat) : Mc :=
  let keep := m.hintPolicy && e.keepOpen
  let here := fun (o : OpenRow) => o.rank = l.rank && o.bg = l.bg && o.bank = l.bank
  let k := { m with
    queue := m.queue.filter (fun k => k.id ≠ e.id)
    openRows := if keep then m.openRows.map (fun (o : OpenRow) => if here o then { o with run := o.run + 1 } else o) else m.openRows.filter (fun o => !here o)
    window := (m.window ++ cmds.map (fun _ => kind)).drop (m.window.length + cmds.length - 256) }
  cmds.zipIdx.foldl (fun (k : Mc) (p : Nat × Nat) =>
    k.log (cmdRecord p.1 l.rank l.bg l.bank (!keep && p.2 + 1 = cmds.length) 0 l.column e.who)) k

/-- The next command of an entry (R318): its column command, or what opens its row. -/
def Dev.serve (d : Dev) (c : Nat) (input : SlotInput) (e : QEntry) : Dev :=
  let m := d.chan c
  let l := d.locate (e.burst * 64)
  match m.rowAt l with
  | some o =>
    if o.row = l.row then
      let kind := d.shareKind e
      let got := match d.readBurst 0 e.burst input.errors with | .ok _ n _ => some n | .bad _ _ => none
      (d.onChan c (fun m => m.afterColumn e l kind (columnCmds e got (d.ctl.mode = .save)))).column c e input.errors
    else
      d.onChan c (fun m => ({ m with openRows := m.openRows.filter (fun k => k ≠ o) }).log (cmdRecord 4 l.rank l.bg l.bank false 0 0 e.who))
  | none =>
    if m.coinOwed.contains (l.rank, l.bg, l.bank) then d.onChan c (mcManage l)
    else if m.raaNeed l.rank l.bg l.bank then d.onChan c (fun m => m.manage l.rank l.bg l.bank)
    else d.activate c e.who l input.draw

/-- A channel issues commands: used, online, initialised, awake and in no retraining pause. -/
def Mc.running (m : Mc) : Bool := m.used && !m.offline && !m.selfRefresh && !m.retraining && 3 ≤ m.stage

/-- REFRESH_2X after a poll (R336). -/
def Dev.pollRate (d : Dev) (c : Nat) (fast : Bool) : Dev :=
  let m := d.chan c
  if fast then
    let d1 := d.onChan c (fun m => { m with refresh2x := true, mr4Clean := 0 })
    if m.refresh2x then d1 else d1.emit 0x0802 (packBytes [(1, c), (1, 1)])
  else if m.refresh2x && 1 ≤ m.mr4Clean then
    (d.onChan c (fun m => { m with refresh2x := false, mr4Clean := 0 })).emit 0x0802 (packBytes [(1, c), (1, 0)])
  else d.onChan c (fun m => { m with mr4Clean := if m.refresh2x then m.mr4Clean + 1 else 0 })

/-- The over-temperature state after a poll (R337): each hot poll is reported. -/
def Dev.pollHeat (d : Dev) (c : Nat) (hot : Bool) : Dev :=
  let m := d.chan c
  let d1 := d.onChan c (fun m => { m with overTemp := hot })
  if hot then d1.emit 0x0803 (packBytes [(1, c), (1, m.mr4.toNat)])
  else if !hot && m.overTemp then d1.emit 0x0804 c
  else d1

/-- The reading with the highest refresh-rate indication, its low three bits (R335). -/
def highestMr4 (rs : List (Byte × Bool × Bool)) : Option Byte :=
  rs.foldl (fun acc r => match acc with
    | none => some r.1
    | some b => if b.toNat % 8 < r.1.toNat % 8 then some r.1 else some b) none

/-- A poll of MR4: one MRR to each rank, then REFRESH_2X and the over-temperature state (R335 to R337). -/
def Dev.poll (d : Dev) (c : Nat) (rs : List (Byte × Bool × Bool)) : Dev :=
  match highestMr4 rs with
  | some v =>
    let d1 := d.onChan c (fun m => { m.ownAll 10 with mr4 := v, mr4Wait := none })
    (d1.pollRate c (rs.any (·.2.1))).pollHeat c (rs.any (·.2.2))
  | none => d.onChan c (fun m => { m with mr4Wait := none })

/-- What the slot of a channel does for requests and, without an eligible one, for the Hen (R317, R318, R330). -/
def Dev.requestSlot (d : Dev) (c : Nat) (input : SlotInput) : Dev :=
  let d1 := ((d.portsEnter c).muleEnter c).goatEnter c
  let m := d1.chan c
  match d1.choose m (d1.eligible m input) with
  | some e => d1.serve c input e
  | none =>
    match d1.idleRefresh m with
    | some (r, b) => d1.refreshBank c r b
    | none => d1.onChan c (fun m => { m with window := (m.window ++ [0]).drop (m.window.length + 1 - 256) })

/-- One command slot (R318): the Hen's command of a forced refresh where timing allows it, requests to other ranks where it does
not (R331), and an MR4 poll that has waited (R341). -/
def Dev.commandSlot (d : Dev) (c : Nat) (input : SlotInput) : Dev :=
  let forced := (List.range 4).filter (fun r => (d.chan c).forced.getD r false)
  match forced.find? (fun r => !input.henBlocked.contains r), (d.chan c).mr4Wait with
  | some r, _ => d.forcedRefresh c r
  | none, some rs => if forced.isEmpty then d.poll c rs else d.requestSlot c input
  | none, none => d.requestSlot c input

/-- CHANNEL_COMMAND_SLOT. -/
def execChannelCommandSlot (channel : Nat) (input : SlotInput) (s : State) : Out :=
  .next (happen s (fun d => if (d.chan channel).running then d.commandSlot channel input else d))

/-! ### Refresh, MR4, idle rows, YOKE windows (R329, R332, R324, R335 to R337, R362) -/

/-- REFRESH_TICK: on every rank of a channel that is initialised and not in self-refresh (R328, R333, R334). -/
def execRefreshTick (channel rank : Nat) (s : State) : Out :=
  .next (happen s (fun d =>
    let m := d.chan channel
    if m.used && !m.offline && !m.selfRefresh && 3 ≤ m.stage && rank ≤ m.ranks.toNat then d.oweUnit channel rank else d))

/-- MR4_POLL: each reading with whether it indicates 2× or more, and a temperature above the maximum. A poll due during self-refresh,
a forced refresh or a retraining pause waits for the first slot after it (R335, R341). -/
def execMr4Poll (channel : Nat) (readings : List (Byte × Bool × Bool)) (s : State) : Out :=
  .next (happen s (fun d =>
    let m := d.chan channel
    if m.used && !m.offline && 2 ≤ m.stage then
      (if m.selfRefresh || m.retraining || m.forced.any (· = true) then d.onChan channel (fun m => { m with mr4Wait := some readings })
       else d.poll channel readings)
    else d))

/-- ROW_IDLE_CLOSE: 200 ns in which no queued request hits the open row (R324). -/
def execRowIdleClose (channel rank bankGroup bank : Nat) (s : State) : Out :=
  .next (happen s (fun d =>
    let m := d.chan channel
    let here := fun (o : OpenRow) => o.rank = rank && o.bg = bankGroup && o.bank = bank
    match m.openRows.find? here with
    | some o =>
      if m.queue.any (fun e => let l := d.locate (e.burst * 64); l.rank = rank && l.bg = bankGroup && l.bank = bank && l.row = o.row) then d
      else d.onChan channel (fun m => ({ m with openRows := m.openRows.filter (fun o => !here o) }).log
        (cmdRecord 4 rank bankGroup bank false 0 0 22))
    | none => d))

/-- YOKE_WINDOW_END: every count returns to 0, every hold ends, and the settings then in force start the next window. -/
def execYokeWindowEnd (channel : Nat) (s : State) : Out :=
  .next (happen s (fun d => if (d.chan channel).stage = 7 then d.onChan channel yokeRestart else d))

/-! ### Parity, captures and thaw (R338, R377, R381, R382) -/

/-- Granules that Mule is reading on a channel when a parity error is reported in SAVE hold an uncorrectable codeword each: counted,
reported, poisoned and tainted (R338, R376). Which burst of the granule it is is a free value (log entry 61). -/
def Dev.paritySave (d : Dev) (c : Nat) : Dev :=
  (d.img.copies.filter (fun k => k.job.isSome && k.took && (d.granuleChannels k.granule).contains c)).foldl
    (fun (d : Dev) k =>
      let bursts := (granuleBursts k.granule).filter (fun b => d.channelOf b = c)
      let b := bursts.getD (d.fresh % max 1 bursts.length) (k.granule * 1024)
      (d.used.uncorrectableAt c 20 b []).onCopy k.id (fun k => { k with taint := true })) d

/-- The reaction to a parity error: a failed stage, a taint in SAVE, or a freeze of kind 2. The requester of the failing command
is not known to the spec (log entry 4). -/
def Dev.parity (d : Dev) (c rank : Nat) : Dev :=
  let d1 := d.emit 0x0805 (packBytes [(1, c), (1, rank)])
  let m := d.chan c
  if d.ctl.mode = .startup && d.ctl.step = .dram && 2 ≤ m.stage && m.stage ≤ 6 then
    (if d.inDramStep then (d1.dramOffline c m.stage).dramSettle else d1)
  else if d.ctl.mode = .save then d1.paritySave c
  else if m.offline then d1
  else
    let l : Loc := { channel := c, rank := rank, bg := 0, bank := 0, row := 0, column := 0 }
    d1.channelError c 2 (d.captureWords c 2 (d.fresh % 23) l 0 [] 0 false)

/-- ALERT_N_PARITY. -/
def execAlertNParity (channel rank : Nat) (s : State) : Out :=
  .next (happen s (fun d => if (d.chan channel).used && 2 ≤ (d.chan channel).stage then d.parity channel rank else d))

/-- CAPTURE_KEEPER_COPY: the capture is copied into the keeper area, unless that is deferred (R377, R424). -/
def execCaptureKeeperCopy (channel : Nat) (s : State) : Out :=
  .next (happen s (fun d =>
    if (d.chan channel).captureToCopy && !d.img.deferred then
      d.onChan channel (fun m => { m with keeperCapture := m.capture, captureToCopy := false })
    else d))

/-- Why a thaw is denied (R165, R382). -/
def thawDenied (c : Nat) (d : Dev) : Bool :=
  !(d.chan c).frozen || ((d.chan c).freezeKind = 3 && !(d.chan c).trainedSinceFreeze)

/-- CHANNEL_THAW (R381). -/
def execChannelThaw (x : Xact) (channel : Byte) (s : State) : Out :=
  let c := channel.toNat
  .next (transact s x
    { opcode := 0x30, len := fun k => k = 1, modes := inOR, lock := fun _ => false, valid := fun sd => c < 4 && (sd.chan c).used
      query := false, cond := fun sd => deny (thawDenied c sd), reply := fun _ _ => (stOk, []), modeChange := false, clear := fun d => d
      effect := fun _ d => Cmd.act (fun d => inOR d && !thawDenied c d) (cmdVoid 0x30 x)
        (fun d => (d.onChan c (fun m => { m with frozen := false })).emit 0x0815 c) d })

end Sys2Proof.Machine
end

