-- ==== Sys2Proof/Machine/HerdLine.lean ====
section
/-! DEFINITION. The herd line of chapter 14: joining and leaving, stepping, CUT, stalls and line faults. -/
namespace Sys2Proof.Machine
open Sys2Proof

/-! ### HERD_CONFIG (R523, R524, Table 5.14) -/

/-- Whether joining is refused: only WAIT_RAILS lets a device join (R523). -/
def joinDenied (join : Bool) (d : Dev) : Bool := join && !d.herd.joined && !inW d

/-- The work of HERD_CONFIG. A join takes the present high period as counted, since the device itself ends it. -/
def Dev.herdConfig (d : Dev) (join : Bool) (addr : BitVec 5) (policy : BitVec 2) (tStall : BitVec 16) : Dev :=
  let d1 := { d with herd := { d.herd with policy := policy, tStall := tStall, addr := if d.ident.strap1 then d.herd.addr else addr } }
  if !join then d1.herdLeave 0
  else if d.herd.joined then d1
  else
    ({ d1 with herd := { d1.herd with
      joined := true, st := 0, counted := true, grabDue := false, holdRunning := false, stalled := false } }).emit 0x0F00
      d1.herd.addr.toNat

/-- HERD_CONFIG, JOIN in bit 7 of its first byte. -/
def herdCmd (x : Xact) (param policy : Byte) (tStall : BitVec 16) : Cmd :=
  let join := param.getLsbD 7
  { opcode := 0x50, len := fun k => k = 4, modes := inWO, lock := fun sd => sd.eu.locked
    valid := fun _ => param.extractLsb' 5 2 = 0 && policy.toNat ≤ 2 && tStall ≠ 0, query := false
    cond := fun sd => if joinDenied join sd then some stDeniedState else none
    reply := fun _ _ => (stOk, []), modeChange := false, clear := fun d => d
    effect := fun _ d => Cmd.act (fun d => inWO d && !joinDenied join d) (cmdVoid 0x50 x)
      (fun d => d.herdConfig join (param.extractLsb' 0 5) (policy.extractLsb' 0 2) tStall) d }

/-- HERD_CONFIG with JOIN = 1. -/
def execHerdConfigJoin (x : Xact) (param policy : Byte) (tStall : BitVec 16) (s : State) : Out :=
  .next (transact s x (herdCmd x param policy tStall))

/-- HERD_CONFIG with JOIN = 0. -/
def execHerdConfigLeave (x : Xact) (param policy : Byte) (tStall : BitVec 16) (s : State) : Out :=
  .next (transact s x (herdCmd x param policy tStall))

/-! ### Stepping (R512 to R515) -/

/-- An increment of HERD_STATE (R512), with HERD_ARMED or HERD_SEALED, and the completion of a HERD_STEP (R515). A device
that enters ARMED does not pull the line (R518). -/
def Dev.herdStepOne (d : Dev) : Dev :=
  let t := d.herd.st + 1
  let d1 := { d with herd := { d.herd with
    st := t, steps := d.herd.steps + 1, counted := true, grabDue := t ≠ 7, holdRunning := false } }
  let d2 := if t = 7 then d1.emit 0x0F02 d.herd.addr.toNat else if t = 9 then d1.emit 0x0F04 d.herd.addr.toNat else d1
  if d.herd.waitFor = some t then d2.seqInput .herdStep else d2

/-- Whether a joined device may still count this high period (R512). -/
def Dev.mayCount (d : Dev) : Bool := d.herd.joined && d.herd.st ≠ 7 && !d.herd.counted

/-- HERD_LINE_FALL: a fall after a high period of at least t_qual. -/
def execHerdLineFall (s : State) : Out :=
  .next (happen s (fun d =>
    let d1 := if d.herd.line && d.mayCount then d.herdStepOne else d
    { d1 with herd := { d1.herd with line := false, stalled := false } }))

/-- HERD_SETTLE_EXPIRE: the line has been high for t_settle. -/
def execHerdSettleExpire (s : State) : Out :=
  .next (happen s (fun d => if d.herd.line && d.mayCount then d.herdStepOne else d))

/-- HERD_GRAB_EXPIRE: t_grab after an increment, or after an entry to CUT from the line, the device pulls (R513, R519). -/
def execHerdGrabExpire (s : State) : Out :=
  .next (happen s (fun d =>
    if d.herd.joined && d.herd.grabDue then { d with herd := { d.herd with grabDue := false, holdRunning := true } } else d))

/-- HERD_HOLD_EXPIRE: t_hold has passed; the line is released if the device is ready (R513). -/
def execHerdHoldExpire (s : State) : Out :=
  .next (happen s (fun d => { d with herd := { d.herd with holdRunning := false } }))

/-- HERD_ARM_EXPIRE: in ARMED the line has been low for t_arm (R519, R520). -/
def execHerdArmExpire (s : State) : Out :=
  .next (happen s (fun d => if d.herdArmed then { d with herd := { d.herd with line := false } }.herdCut false 0 else d))

/-! ### Stalls and line faults (R525, R526, R530) -/

/-- A device that leaves while it waits at a HERD_STEP completes the step as one that is not joined (R515, R525). -/
def Dev.herdLeaveStep (d : Dev) (reason : Nat) : Dev :=
  let d1 := d.herdLeave reason
  match d.herd.waitFor with
  | some t => ({ d1 with herd := { d1.herd with st := t } }).seqInput .herdStep
  | none => d1

/-- The end of a stall: its length and state, and HERD_STALL_END (R526). -/
def Dev.stallEnd (d : Dev) (st : BitVec 4) (len : BitVec 16) : Dev :=
  ({ d with herd := { d.herd with lastStallLen := len, lastStallState := st } }).emit 0x0F06 (packBytes [(1, st.toNat), (2, len.toNat)])

/-- HERD_STALL: the line has been low for t_stall at a HERD_STEP; STALL_POLICY says what follows (R525). -/
def execHerdStall (s : State) : Out :=
  .next (happen s (fun d =>
    if d.herd.joined && !d.herd.line && !d.herd.stalled && d.herd.waitFor.isSome then
      let d1 := ({ d with herd := { d.herd with stalled := true, stalls := satInc d.herd.stalls } }).emit 0x0F05
        (packBytes [(1, d.herd.st.toNat), (1, d.herd.policy.toNat)])
      if d.herd.policy = 0 then d1.latchCause 5
      else if d.herd.policy = 1 then
        let d2 := (d1.herdLeaveStep 1).stallEnd d.herd.st d.herd.tStall
        { d2 with herd := { d2.herd with stalled := false } }
      else d1
    else d))

/-- HERD_LINE_RISE: the line rises after a low period of `lowLength` × 10 µs; a stall ends (R526). -/
def execHerdLineRise (lowLength : Nat) (s : State) : Out :=
  .next (happen s (fun d =>
    let d1 := if d.herd.joined && d.herd.stalled then d.stallEnd d.herd.st (satBits 16 lowLength) else d
    { d1 with herd := { d1.herd with line := true, stalled := false, counted := d.herd.line && d.herd.counted } }))

/-- HERD_LINE_FAULT: the filtered line reads high for 20 cycles while the device pulls it (R530). -/
def execHerdLineFault (s : State) : Out :=
  .next (happen s (fun d =>
    if d.herd.joined && d.herd.pulling then { d with herd := { d.herd with line := true } }.herdLeaveStep 4 else d))

end Sys2Proof.Machine
end

