-- ==== Sys2Proof/Machine/Link.lean ====
section
/-! DEFINITION. Link training of a fabric port: detection, TB1 and TB2, equalisation, the entry to ACTIVE and retraining
(Table 7.2, R206 to R213), and the packet-start ordered set (R204). -/
namespace Sys2Proof.Machine
open Sys2Proof

/-! ### What a port sends -/

/-- The port with packets or ordered sets sent; the newest 32 are kept. -/
def fabSend (f : Fab) (l : List Wire) : Fab := { f with sent := (f.sent ++ l).drop (f.sent.length + l.length - 32) }

/-- A packet on the wire, with its CRC-32 (R231). -/
def Packet.wire (k : Packet) : Wire := .packet k k.crc

/-- A header alone, as a packet on the wire. -/
def bare (h : BitVec 128) : Wire := ({ hdr := h, data := [] } : Packet).wire

/-- An ordered set on lanes 0 to `n` - 1, from the lane's number to its block. -/
def ordered (n : Nat) (f : Nat → BitVec 128) : Wire := .ordered ((List.range n).map f)

/-- A PSO block: 0x5E in all 16 symbols (R204). -/
def psoBlock : BitVec 128 := 0x5E5E5E5E5E5E5E5E5E5E5E5E5E5E5E5E

/-- A PSO on every active lane. -/
def fabPso (f : Fab) : Wire := ordered f.width.toNat (fun _ => psoBlock)

/-- A CREDIT packet with the port's limit (R228). -/
def fabCredit (f : Fab) : Fab := fabSend { f with lastCreditSent := f.rxLimit } [bare (creditHeader f.rxLimit)]

/-- The rates a port allows: 8 GT/s up to its MAX_RATE (Table 7.3). -/
def ratesUpTo (r : BitVec 2) : BitVec 3 := BitVec.ofNat 3 (2 ^ r.toNat - 1)

/-- The port keeps link-layer state across this training: RESUME is 1 only in RETRAIN, so a full training after RETRAIN's 2 ms, up to
which the state is kept, ends in a fresh start (R208; log entry 36). -/
def fabKeeps (f : Fab) : Bool := f.holdsState && f.link = .retrain

/-- The preset the port asks its partner for: in EQ the one in turn, elsewhere the one kept for the rate (R211). -/
def fabAsks (f : Fab) : Option Nat :=
  let n := if f.link = .eq then f.presetStep else f.keptPreset
  if n < 11 then some n else none

/-- The lanes a port trains: the width in RETRAIN and EQ, and the lanes of its largest width before one is settled (R201). -/
def fabLanes (f : Fab) : Nat := if f.link = .retrain || f.link = .eq then f.width.toNat else f.useWidth.toNat

/-- A training block on every lane, each with its own number (R207). -/
def fabTb (f : Fab) (id : Byte) (resume : Bool) (nextRx : BitVec 12) (credits : BitVec 16) : Wire :=
  ordered (fabLanes f) (fun lane =>
    tbMake id (BitVec.ofNat 8 lane) (ratesUpTo f.useRate) f.useWidth resume nextRx credits (fabAsks f))

/-- The TB2 the port sends. -/
def fabTb2 (f : Fab) : Wire := fabTb f 0x5D (fabKeeps f) f.rxSeq 512

/-- The TB1 the port sends. -/
def fabTb1 (f : Fab) : Wire := fabTb f 0x5C false 0 0

/-- The port with a TB1 sent. -/
def sendTb1 (f : Fab) : Fab := fabSend f [fabTb1 f]

/-- The port with a TB2 sent; those after the first one received are counted (Table 7.2). -/
def sendTb2 (f : Fab) (received : Bool) : Fab := fabSend { f with tb2Sent := f.tb2Sent + (if received then 1 else 0) } [fabTb2 f]

/-! ### States -/

/-- A training exchange starts anew. -/
def fabExchange (f : Fab) (st : LinkState) : Fab := { f with link := st, tb1Good := 0, tb2Good := 0, tb2Sent := 0, tb2Last := 0 }

/-- DETECT: a full training from the start, with the limits in force now (R213). -/
def fabDetect (f : Fab) : Fab :=
  { fabExchange f .detect with
    afterRetrain := false, holdsState := false, useWidth := f.maxWidth, useRate := f.maxRate, rate := 0, width := 0
    eqFailed := false, bestPreset := 11, keptPreset := 11 }

/-- POLL at 8 GT/s: the port sends TB1. -/
def fabPoll (f : Fab) : Fab := sendTb1 { fabExchange f .poll with rate := 1, keptPreset := 11 }

/-- CONFIG: the port sends TB2. -/
def fabConfig (f : Fab) : Fab := sendTb2 (fabExchange f .config) false

/-- LINK_DETECT: a termination on lane 0 ends DETECT. -/
def execLinkDetect (port : Port) (termination : Bool) (s : State) : Out :=
  .next (happen s (fun d =>
    if (d.port port).link = .detect && termination then d.onPort port (fun f => fabPoll (fabDetect f)) else d))

/-- A retrain (R237). -/
def Dev.retrain (d : Dev) (p : Port) (cause : Nat) : Dev :=
  if (d.port p).link = .active then
    (d.onPort p (fun f => sendTb1 { fabExchange f .retrain with episodes := 0, skipToPso := false, resend := [] })).emit 0x0202
      (packBytes [(1, portCode p), (1, cause)])
  else d

/-- A training block that the receiver keeps: its ID and CHECK are right (R207). -/
def tbIs (id : Byte) (b : BitVec 128) : Bool := tbSym b 0 = id && tbGood b

/-- TB1 in POLL: 8 consecutive good blocks on lane 0 lead to CONFIG. -/
def fabPollTb1 (f : Fab) (b : BitVec 128) : Fab :=
  if tbIs 0x5C b && tbSym b 1 = 0 then
    let g := { f with tb1Good := f.tb1Good + 1, hostRates := tbRates b, hostWidth := tbWidth b }
    if 8 ≤ g.tb1Good then fabConfig g else g
  else if tbIs 0x5C b then f
  else { f with tb1Good := 0 }

/-- The port transmits the preset that a good block asks for (R211). -/
def fabHeed (f : Fab) (b : BitVec 128) : Fab :=
  if tbGood b then { f with txPreset := (tbPreset b).getD f.txPreset } else f

/-- TB1_RX: in ACTIVE a retrain cause; in CONFIG and RETRAIN it breaks a run of TB2. The port goes on sending the blocks of its
state, one for each received (log entry 36). -/
def execTb1Rx (port : Port) (symbols : BitVec 128) (s : State) : Out :=
  .next (happen s (fun d =>
    match (d.port port).link with
    | .poll => d.onPort port (fun f => fabPollTb1 (sendTb1 (fabHeed f symbols)) symbols)
    | .active => if tbIs 0x5C symbols then d.retrain port 2 else d
    | .config => d.onPort port (fun f => { sendTb2 (fabHeed f symbols) (0 < f.tb2Sent) with tb2Good := 0 })
    | .eq => d.onPort port (fun f => fabHeed f symbols)
    | .retrain => d.onPort port (fun f => { sendTb1 (fabHeed f symbols) with tb2Good := 0 })
    | _ => d))

/-! ### The end of a training exchange (R201, R208 to R212) -/

/-- The width that R201 gives; 0 where not even lane 0 has block lock. -/
def fabWidthNow (f : Fab) : Nat :=
  ([8, 4, 2, 1].find? (fun w =>
    w ≤ f.useWidth.toNat && w ≤ f.hostWidth.toNat && (List.range w).all (fun i => f.laneLock.getLsbD i))).getD 0

/-- The next rate that both sides support within the limit, or none (Table 7.2). -/
def fabNextRate (f : Fab) : Option Nat :=
  if f.eqFailed then none
  else [2, 3].find? (fun r => f.rate.toNat < r && r ≤ f.useRate.toNat && f.hostRates.getLsbD (r - 1))

/-- 8 identical TB2 have been received and 16 sent, with 5 credits or more granted (R206, R210). -/
def fabAgreed (f : Fab) : Bool := 8 ≤ f.tb2Good && 16 ≤ f.tb2Sent && 5 ≤ f.hostCredits.toNat

/-- A TB2 taken into account: the run of identical blocks and what the host's last one said. -/
def fabTakeTb2 (f : Fab) (b : BitVec 128) (locked : BitVec 8) : Fab :=
  let good := tbIs 0x5D b
  let f1 := sendTb2 (fabHeed f b) (good || 0 < f.tb2Sent)
  if good then
    { f1 with
      tb2Good := if b = f.tb2Last then f.tb2Good + 1 else 1, tb2Last := b, laneLock := locked
      hostRates := tbRates b, hostWidth := tbWidth b, hostResume := tbResume b, hostRxSeq := tbNextRx b, hostCredits := tbCredits b }
  else { f1 with tb2Good := 0, laneLock := locked }

/-- Packets before a SEQ leave the replay buffer (R232, R236). -/
def replayFrom (n : BitVec 12) (l : List (BitVec 12 × Packet)) : List (BitVec 12 × Packet) :=
  if l.any (fun (p : BitVec 12 × Packet) => p.1 = n) then l.dropWhile (fun p => p.1 ≠ n) else l

/-- The link-layer state of a retrain goes on from the SEQ the host expects: nothing is left where that is the next new one, and
what is left is resent before any new packet. -/
def fabResume (f : Fab) : Fab :=
  let left := if f.hostRxSeq = f.txSeq then [] else replayFrom f.hostRxSeq f.replay
  { f with replay := left, resend := left }

/-- ACTIVE: PSO and CREDIT first, then packets (Table 7.2, R212). None can start in the host's stream before its PSO (R204). -/
def fabActive (f : Fab) (fresh retrained full : Bool) : Fab :=
  let g := { f with
    link := .active, holdsState := true, afterRetrain := false, episodes := 0, tb2Good := 0, tb2Sent := 0, skipToPso := true
    trainCount := if full then satInc f.trainCount else f.trainCount, retrains := if retrained then satInc f.retrains else f.retrains }
  fabCredit (fabSend (if fresh then g else fabResume g) [fabPso f])

/-- FAB_LINK_UP and FAB_DEGRADED (R212). -/
def Dev.linkUp (d : Dev) (p : Port) : Dev :=
  let f := d.port p
  let v := packBytes [(1, portCode p), (1, f.rate.toNat), (1, f.width.toNat)]
  let d1 := d.emit 0x0200 v
  if f.rate.toNat < f.useRate.toNat || f.width.toNat < f.useWidth.toNat then d1.emit 0x0203 v else d1

/-- The exchange is agreed and no faster rate is left to try: a fresh start waits until every request admitted before it has been
applied (R41, R209). -/
def Dev.linkEnter (d : Dev) (p : Port) (w : Nat) : Dev :=
  let f := d.port p
  let fresh := !(fabKeeps f && f.hostResume)
  let full := f.link = .config
  let again := f.link = .retrain || f.afterRetrain
  if fresh then
    let d1 := d.onPort p fabFresh
    if (d1.port p).inflight.isEmpty then
      (d1.onPort p (fun g => fabActive { g with width := BitVec.ofNat 4 w } true again full)).linkUp p
    else d1
  else (d.onPort p (fun g => fabActive { g with width := BitVec.ofNat 4 w } false again full)).linkUp p

/-- EQ at a rate: the host is asked for P0 first. Which block asks is not said; TB1 does (log entry 36). -/
def fabEq (f : Fab) (r : Nat) : Fab :=
  sendTb1 { fabExchange f .eq with eqRate := BitVec.ofNat 2 r, presetStep := 0, bestEye := 0, bestPreset := 11 }

/-- What follows an agreed exchange. DESIGN CHOICE (log entry 65): Table 7.2 gives what an exchange needs for CONFIG alone; RETRAIN's
"success" is the same exchange, with block lock on every lane of the width it keeps. -/
def Dev.linkAgreed (d : Dev) (p : Port) : Dev :=
  let f := d.port p
  if f.link = .retrain then
    (if (List.range f.width.toNat).all (fun i => f.laneLock.getLsbD i) then d.linkEnter p f.width.toNat else d)
  else if fabWidthNow f = 0 then d
  else match fabNextRate f with
    | some r => d.onPort p (fun f => fabEq { f with width := BitVec.ofNat 4 (fabWidthNow f) } r)
    | none => d.linkEnter p (fabWidthNow f)

/-- TB2_RX in CONFIG or RETRAIN, with the lanes that have block lock; in EQ it can ask for a preset. -/
def execTb2Rx (port : Port) (symbols : BitVec 128) (locked : BitVec 8) (s : State) : Out :=
  .next (happen s (fun d =>
    if (d.port port).link = .eq then d.onPort port (fun f => fabHeed f symbols)
    else if (d.port port).link = .config || (d.port port).link = .retrain then
      let d1 := d.onPort port (fun f => fabTakeTb2 f symbols locked)
      if fabAgreed (d1.port port) then d1.linkAgreed port else d1
    else d))

/-! ### Equalisation (R211) -/

/-- CONFIG at the last rate that succeeded, with no faster rate tried again: a degraded link. -/
def fabEqFail (f : Fab) : Fab := fabConfig { f with eqFailed := true }

/-- A preset has been tried for 1 ms, and the host is asked for the next; the search keeps the preset with the widest eye. DESIGN
CHOICE (log entry 66): of two equally wide eyes the lower preset's is kept. -/
def fabPreset (f : Fab) (eye : Nat) (locked : Bool) : Fab :=
  let better := locked && (f.bestPreset = 11 || f.bestEye < eye)
  let g := { f with
    presetStep := f.presetStep + 1, bestEye := if better then eye else f.bestEye
    bestPreset := if better then f.presetStep else f.bestPreset }
  if g.presetStep < 11 then sendTb1 g
  else if g.bestPreset = 11 then fabEqFail g
  else fabConfig { g with rate := g.eqRate, keptPreset := g.bestPreset }

/-- EQ_PRESET_STEP: the eye of the preset in turn, and whether all lanes of the width had block lock. -/
def execEqPresetStep (port : Port) (eye : Nat) (locked : Bool) (s : State) : Out :=
  .next (happen s (fun d => if (d.port port).link = .eq then d.onPort port (fun f => fabPreset f eye locked) else d))

/-! ### Timeouts, block lock, PSO -/

/-- LINK_TRAIN_TIMEOUT (24 ms). -/
def execLinkTrainTimeout (port : Port) (s : State) : Out :=
  .next (happen s (fun d =>
    match (d.port port).link with
    | .poll => d.onPort port fabDetect
    | .config => d.onPort port fabDetect
    | .eq => d.onPort port fabEqFail
    | _ => d))

/-- RETRAIN_TIMEOUT (2 ms): full training, with the link-layer state kept until its exchange is agreed. -/
def execRetrainTimeout (port : Port) (s : State) : Out :=
  .next (happen s (fun d =>
    if (d.port port).link = .retrain then
      d.onPort port (fun f => { fabPoll f with afterRetrain := true, eqFailed := false })
    else d))

/-- BLOCK_LOCK_LOST on an active lane (R237). -/
def execBlockLockLost (port : Port) (lane : Nat) (s : State) : Out :=
  .next (happen s (fun d => if lane < (d.port port).width.toNat then d.retrain port 1 else d))

/-- PSO_RX: scrambling starts anew, and the next byte can start a packet (R203, R204). -/
def execPsoRx (port : Port) (s : State) : Out :=
  .next (happen s (fun d =>
    if (d.port port).link = .active then d.onPort port (fun f => { f with skipToPso := false }) else d))

end Sys2Proof.Machine
end

