-- ==== Sys2Proof/Machine/Packets.lean ====
section
/-! DEFINITION. Packets of a fabric port: receipt with its sequence, credit and protocol checks, admission to a channel, completions,
acknowledgement and replay (chapter 7, R214 to R251). -/
namespace Sys2Proof.Machine
open Sys2Proof

/-! ### Acknowledgement, credits, replay (R227 to R236) -/

/-- An ACK of every packet accepted. -/
def fabAck (f : Fab) : Fab := fabSend { f with ackOwed := 0 } [bare (ackHeader 0xC (f.rxSeq - 1))]

/-- A NAK, once until a packet is accepted (R234). -/
def fabNak (f : Fab) : Fab :=
  if f.nakSent then f
  else fabSend { f with nakSent := true, naksSent := satInc f.naksSent } [bare (ackHeader 0xD (f.rxSeq - 1))]

/-- Credits are returned; a CREDIT goes at once when 32 units or more have been returned since the last (R228). -/
def fabReturn (f : Fab) (n : Nat) : Fab :=
  let g := { f with rxLimit := f.rxLimit + BitVec.ofNat 16 n }
  if g.link = .active && 32 ≤ (g.rxLimit - g.lastCreditSent).toNat then fabCredit g else g

/-- Free the packets up to a SEQ that is unacknowledged. -/
def replayAfter (n : BitVec 12) (l : List (BitVec 12 × Packet)) : List (BitVec 12 × Packet) :=
  (l.dropWhile (fun (p : BitVec 12 × Packet) => p.1 ≠ n)).drop 1

/-- A replay episode: a PSO, then every remaining packet in SEQ order before any new one, each at a COMPLETION_SEND; a replay in
progress starts anew (R236, R251). The fourth without progress retrains (R237). -/
def Dev.replayNow (d : Dev) (p : Port) : Dev :=
  let d1 := d.onPort p (fun f =>
    fabSend { f with replays := satInc f.replays, episodes := f.episodes + 1, resend := f.replay } [fabPso f])
  if 4 ≤ (d1.port p).episodes then d1.retrain p 0 else d1

/-- REPLAY_TIMEOUT: 4 µs without acknowledgement progress. -/
def execReplayTimeout (port : Port) (s : State) : Out :=
  .next (happen s (fun d =>
    if (d.port port).link = .active && !(d.port port).replay.isEmpty then d.replayNow port else d))

/-- ACK_TIMER: within 1 µs of accepting a sequenced packet (R235). -/
def execAckTimer (port : Port) (s : State) : Out :=
  .next (happen s (fun d =>
    if (d.port port).link = .active && 0 < (d.port port).ackOwed then d.onPort port fabAck else d))

/-- CREDIT_TIMER (R228). -/
def execCreditTimer (port : Port) (s : State) : Out :=
  .next (happen s (fun d => if (d.port port).link = .active then d.onPort port fabCredit else d))

/-! ### Receipt (R233, R234, R247) -/

/-- A request packet that the host sends. -/
def isRequest (h : BitVec 128) : Bool := 1 ≤ (hdrType h).toNat && (hdrType h).toNat ≤ 4

/-- A packet outside the sequence: ACK, NAK, CREDIT. -/
def isLinkPacket (h : BitVec 128) : Bool := hdrType h = 0xC || hdrType h = 0xD || hdrType h = 0xE

/-- The bits of a header that are reserved for its type (Tables 7.5, 7.7). -/
def reservedMask (h : BitVec 128) : BitVec 128 :=
  let low := fun (n : Nat) => BitVec.ofNat 128 (2 ^ n - 1)
  if hdrType h = 3 then BitVec.ofNat 128 (2 ^ 108)
  else if isRequest h then BitVec.ofNat 128 (2 ^ 108) ||| low 64
  else if hdrType h = 0xE then low 96 ||| BitVec.ofNat 128 (0xFFF * 2 ^ 112)
  else low 112

/-- The tags outstanding on a port (R222). -/
def fabTagUsed (f : Fab) (t : Byte) : Bool :=
  f.rx.any (fun r => r.tag = t) || f.inflight.any (fun r => !r.drop && r.req.tag = t) || f.cq.any (fun c => hdrTag c.hdr = t)

/-- A cost beyond the credit limit (R227). -/
def overLimit (limit consumed : BitVec 16) (c : Nat) : Bool := 2 ^ 15 ≤ (limit - consumed - BitVec.ofNat 16 c).toNat

/-- The credit cost of a sequenced packet from the host; 1 for a type it does not send. -/
def costOf (h : BitVec 128) : Nat := if isRequest h then (reqOf h []).cost else 1

/-- The protocol error of a packet, by the order of R247. DESIGN CHOICE (log entry 67): of several at once the lowest kind is
reported. -/
def protocolKind (f : Fab) (h : BitVec 128) : Option Nat :=
  if !isRequest h && !isLinkPacket h then some 0
  else if h &&& reservedMask h ≠ 0 || (isRequest h && hdrHint h = 3) then some 1
  else if isRequest h && (reqOf h []).isLong && (hdrAddr h).extractLsb' 0 2 ≠ 0 then some 2
  else if isRequest h && fabTagUsed f (hdrTag h) then some 3
  else if isRequest h && overLimit f.rxLimit f.rxConsumed (costOf h) then some 4
  else if (hdrType h = 0xC || hdrType h = 0xD) && !f.replay.any (fun p => p.1 = hdrSeq h) then some 5
  else none

/-- FAB_PROTOCOL and the retrain (R247). DESIGN CHOICE (log entry 68): a link packet or an unassigned type has no STREAM and TAG; its
header bits at their places are reported. -/
def Dev.protocolError (d : Dev) (p : Port) (kind : Nat) (h : BitVec 128) : Dev :=
  (d.emit 0x0204 (packBytes [(1, portCode p), (1, kind), (1, (hdrStream h).toNat), (1, (hdrTag h).toNat)])).retrain p 3

/-- A sequenced packet in its place: accepted, and the request put in the receive buffer. -/
def Dev.acceptPacket (d : Dev) (p : Port) (h : BitVec 128) (data : List Byte) : Dev :=
  let kind := protocolKind (d.port p) h
  let took := fun (f : Fab) =>
    let g := { f with rxSeq := f.rxSeq + 1, nakSent := false, ackOwed := f.ackOwed + 1, rxConsumed := f.rxConsumed + BitVec.ofNat 16 (costOf h) }
    if 32 ≤ g.ackOwed then fabAck g else g
  match kind with
  | some k => (d.onPort p (fun f => fabReturn (took f) (costOf h))).protocolError p k h
  | none => d.onPort p (fun f => { took f with rx := f.rx ++ [reqOf h data] })

/-- A sequenced packet by its SEQ (R233, R234). -/
def Dev.takeSequenced (d : Dev) (p : Port) (h : BitVec 128) (data : List Byte) : Dev :=
  let f := d.port p
  if hdrSeq h = f.rxSeq then d.acceptPacket p h data
  else if (f.rxSeq - hdrSeq h).toNat ≤ 2048 then d.onPort p fabAck
  else d.onPort p (fun f => fabNak { f with skipToPso := true })

/-- Packets up to a SEQ are acknowledged, which is progress. -/
def fabAcked (n : BitVec 12) (f : Fab) : Fab :=
  let left := replayAfter n f.replay
  { f with replay := left, resend := f.resend.filter (fun q => left.contains q), episodes := 0 }

/-- A link packet (R227, R232, R236, R251). -/
def Dev.takeLinkPacket (d : Dev) (p : Port) (h : BitVec 128) : Dev :=
  match protocolKind (d.port p) h with
  | some k => d.protocolError p k h
  | none =>
    if hdrType h = 0xE then d.onPort p (fun f => { f with txLimit := hdrCredit h })
    else if hdrType h = 0xC then d.onPort p (fabAcked (hdrSeq h))
    else (d.onPort p (fabAcked (hdrSeq h))).replayNow p

/-- A packet with a bad CRC: discarded, with every byte up to the next PSO; a link packet without a NAK (R234). -/
def Dev.takeCorrupt (d : Dev) (p : Port) (h : BitVec 128) : Dev :=
  d.onPort p (fun f =>
    let g := { f with crcErrors := satInc f.crcErrors, skipToPso := true }
    if isLinkPacket h then g else fabNak g)

/-- Bytes that start where a packet could begin, with the CRC-32 they carry, arrive on a port that exchanges packets. Until a PSO none
can start (R204, R234); a first byte 0x00 is idle (R205). -/
def Dev.receive (d : Dev) (p : Port) (h : BitVec 128) (data : List Byte) (crc : Word) : Dev :=
  if (d.port p).link ≠ .active || (d.port p).skipToPso || h.extractLsb' 120 8 = 0 then d
  else if crc ≠ ({ hdr := h, data := data } : Packet).crc then d.takeCorrupt p h
  else if isLinkPacket h then d.takeLinkPacket p h
  else d.takeSequenced p h data

/-- RD64. -/
def execRd64 (port : Port) (hdr : BitVec 128) (crc : Word) (s : State) : Out :=
  .next (happen s (fun d => d.receive port hdr [] crc))
/-- RD256. -/
def execRd256 (port : Port) (hdr : BitVec 128) (crc : Word) (s : State) : Out :=
  .next (happen s (fun d => d.receive port hdr [] crc))
/-- WR64. -/
def execWr64 (port : Port) (hdr : BitVec 128) (data : List Byte) (crc : Word) (s : State) : Out :=
  .next (happen s (fun d => d.receive port hdr data crc))
/-- WR256. -/
def execWr256 (port : Port) (hdr : BitVec 128) (data : List Byte) (crc : Word) (s : State) : Out :=
  .next (happen s (fun d => d.receive port hdr data crc))
/-- ACK. -/
def execAck (port : Port) (hdr : BitVec 128) (crc : Word) (s : State) : Out :=
  .next (happen s (fun d => d.receive port hdr [] crc))
/-- NAK. -/
def execNak (port : Port) (hdr : BitVec 128) (crc : Word) (s : State) : Out :=
  .next (happen s (fun d => d.receive port hdr [] crc))
/-- CREDIT. -/
def execCredit (port : Port) (hdr : BitVec 128) (crc : Word) (s : State) : Out :=
  .next (happen s (fun d => d.receive port hdr [] crc))

/-- PACKET_CRC_ERROR: a packet of any type as it was received, with a bad CRC or a SEQ ahead (R234). -/
def execPacketCrcError (port : Port) (hdr : BitVec 128) (data : List Byte) (crc : Word) (s : State) : Out :=
  .next (happen s (fun d => d.receive port hdr data crc))

/-! ### Admission (Table 7.8, R223 to R230, R238, R240, R250, R265, R316, R574) -/

/-- What one look at a request decides. -/
inductive Verdict1 where
  /-- Completed at steps 1 to 3 with a code. -/
  | refuse (code : BitVec 4)
  /-- Held by GUARD, or by room. -/
  | wait
  /-- Waits for its granule (R574). -/
  | demand
  /-- Admitted to a frozen channel (step 5). -/
  | frozen
  | admitted
  deriving DecidableEq, Repr

/-- A write that GUARD holds (R502). -/
def Dev.guardHolds (d : Dev) (r : Req) : Bool :=
  d.adm.holding && !r.isRead && r.mask ≠ 0 && !(d.entry r.granule).dirty && classIn d.attrs r.granule < 2

/-- The steps of Table 7.8 before the channel. -/
def Dev.judge (d : Dev) (p : Port) (r : Req) : Verdict1 :=
  let m := d.chan (d.channelOf (r.base / 64))
  if !d.ctl.hostPath then .refuse 5
  else if d.visible < r.base + r.bytes then .refuse 4
  else if !rightsIn d.attrs r.granule (portRight p (!r.isRead)) then .refuse 1
  else if d.guardHolds r then .wait
  else if d.ctl.mode = .restore && d.rst.unrestored.contains r.granule then .demand
  else if r.isRead && 256 ≤ (d.port p).cq.length then .wait
  else if m.frozen || m.offline then .frozen
  else if !m.room (sourceOf p r) r.bursts then .wait
  else .admitted

/-- The request leaves the receive buffer, its credits returned, and stands among the admitted with or without its code. -/
def fabLeave (f : Fab) (r : Req) (epoch : Word) (domain : BitVec 3) (hint : BitVec 2) (code : Option (BitVec 4)) : Fab :=
  let id := f.inflight.foldl (fun n k => max n (k.id + 1)) 0
  fabReturn { f with
    rx := f.rx.erase r
    inflight := f.inflight ++ [({ id := id, req := r, left := if code.isSome then 0 else r.bursts, epoch := epoch, domain := domain
                                  hint := hint, code := code, data := [], drop := false, poisoned := false, begun := false } : FReq)] } r.cost

/-- The hint passed to the channel (R221). -/
def Dev.hintFor (d : Dev) (r : Req) : BitVec 2 := if r.hint = 1 || r.hint = 2 then r.hint else hintIn d.attrs r.granule

/-- READS and WRITES (R226). -/
def fabCount (f : Fab) (r : Req) : Fab := if r.isRead then { f with reads := f.reads + 1 } else { f with writes := f.writes + 1 }

/-- The bursts of an admitted request enter the channel queue together (R315). -/
def Dev.enterRequest (d : Dev) (p : Port) (r : Req) (id : Nat) : Dev :=
  let dom := domainIn d.attrs r.granule
  let keep := d.hintFor r = 1
  let acc := fun (k : Nat) =>
    if r.isRead then Access.read
    else if r.isLong then .write (BitVec.allOnes 64) ((r.data.drop (64 * k)).take 64)
    else .write r.mask r.data
  (List.range r.bursts).foldl (fun (d : Dev) k =>
    d.enter (d.channelOf (r.base / 64)) (.fabric p id) (sourceOf p r) (r.base / 64 + k) (acc k) dom keep) d

/-- The latest request of a port. -/
def lastId (f : Fab) : Nat := match f.inflight.getLast? with | some r => r.id | none => 0

/-- A request leaves with its verdict. -/
def Dev.leaveAs (d : Dev) (p : Port) (r : Req) (v : Verdict1) : Dev :=
  let dom := domainIn d.attrs r.granule
  let leave := fun (code : Option (BitVec 4)) (d : Dev) => d.onPort p (fun f => fabLeave f r d.reg.epoch dom (d.hintFor r) code)
  match v with
  | .refuse c => leave (some c) (if c = 1 then d.regionFault (portCode p) r.stream.toNat r.base else d)
  | .frozen => leave (some 2) (d.onPort p (fun f => fabCount f r))
  | .admitted => (let d1 := leave none (d.onPort p (fun f => fabCount f r)); d1.enterRequest p r (lastId (d1.port p)))
  | _ => d

/-- A request waits; one for an unrestored granule makes its demand in the first cycle it waits. -/
def Dev.waitAs (d : Dev) (p : Port) (r : Req) (v : Verdict1) : Dev :=
  let d1 := d.onPort p (fun f => { f with rx := f.rx.map (fun k => if k = r then { k with waiting := true } else k) })
  if v = .demand && !d.rst.demand.contains r.granule then { d1 with rst := { d1.rst with demand := d1.rst.demand ++ [r.granule] } } else d1

/-- The oldest request of each source, oldest first. -/
def heads : List (BitVec 3) → List Req → List Req
  | _, [] => []
  | seen, r :: t => if seen.contains r.stream then heads seen t else r :: heads (r.stream :: seen) t

/-- A port's turn: the first head that need not wait leaves; those before it wait. -/
def Dev.admitFrom (d : Dev) (p : Port) : List Req → Dev
  | [] => d
  | r :: t =>
    match d.judge p r with
    | .wait => (d.waitAs p r .wait).admitFrom p t
    | .demand => (d.waitAs p r .demand).admitFrom p t
    | v => d.leaveAs p r v

/-- One port's admission. -/
def Dev.admitPort (d : Dev) (p : Port) : Dev := d.admitFrom p (heads [] (d.port p).rx)

/-- The channel of a port's request to be admitted now, if it has one. -/
def Dev.wants (d : Dev) (p : Port) : Option Nat :=
  match (heads [] (d.port p).rx).find? (fun r => d.judge p r ≠ .wait && d.judge p r ≠ .demand) with
  | some r => if d.judge p r = .admitted then some (d.channelOf (r.base / 64)) else none
  | none => none

/-- The requests of the ports that want channel `c`, and the accesses of the ports' engines to it in the same cycle: each port's
request before its engines, the ports as the pointer says (R320, R321). -/
def Dev.admitChannel (d : Dev) (c : Nat) (want : Port → Option Nat) : Dev :=
  d.portsTurn c (fun p d => (if want p = some c then d.admitPort p else d).enginesEnter c p)

/-- REQUEST_ADMIT: each port named admits at most one request (R321). -/
def execRequestAdmit (fa fb : Bool) (s : State) : Out :=
  .next (happen s (fun d =>
    let named := fun (p : Port) => match p with | .fa => fa | .fb => fb
    let want := fun (p : Port) => if named p then d.wants p else none
    let d1 := ([want .fa, want .fb].filterMap id).eraseDups.foldl (fun (d : Dev) c => d.admitChannel c want) d
    [Port.fa, .fb].foldl (fun (d : Dev) p => if named p && (want p).isNone then d.admitPort p else d) d1))

/-! ### Completions (R217, R226, R229, R232, R238) -/

/-- The bytes a packet takes in the replay buffer: header, payload and CRC. -/
def packetBytes (k : Packet) : Nat := 20 + k.data.length

/-- CODE of a completion. -/
def hdrCode (h : BitVec 128) : BitVec 4 := h.extractLsb' 96 4

/-- The counter of a completion's code (R226). -/
def fabTally (f : Fab) (c : BitVec 4) : Fab :=
  if c = 1 then { f with cplRegionFault := satInc f.cplRegionFault }
  else if c = 2 then { f with cplFrozen := satInc f.cplFrozen }
  else if c = 3 then { f with cplPoisoned := satInc f.cplPoisoned }
  else if c = 4 then { f with cplUnmapped := satInc f.cplUnmapped }
  else if c = 5 then { f with cplNotAdmitted := satInc f.cplNotAdmitted }
  else f

/-- The completion at the head of the queue may be sent: credit, 2048 packets, 64 KiB. -/
def fabMaySend (f : Fab) (k : Packet) : Bool :=
  f.link = .active && !overLimit f.txLimit f.txConsumed (cplCost k) && f.replay.length < 2048
    && (f.replay.map (fun q => packetBytes q.2)).foldl (· + ·) 0 + packetBytes k ≤ 65536

/-- A completion is sent and kept for replay. -/
def fabComplete (f : Fab) (k : Packet) (rest : List Packet) : Fab :=
  let out : Packet := { k with hdr := withSeq k.hdr f.txSeq }
  fabSend (fabTally { f with
    cq := rest, txSeq := f.txSeq + 1, txConsumed := f.txConsumed + BitVec.ofNat 16 (cplCost k)
    replay := f.replay ++ [(f.txSeq, out)] } (hdrCode k.hdr)) [out.wire]

/-- The port's turn to send: the next packet of a replay in progress, or else the completion at the head of the queue. -/
def fabTransmit (f : Fab) : Fab :=
  match f.resend, f.cq with
  | q :: rest, _ => if f.link = .active then fabSend { f with resend := rest } [q.2.wire] else f
  | [], k :: rest => if fabMaySend f k then fabComplete f k rest else f
  | [], [] => f

/-- COMPLETION_SEND. -/
def execCompletionSend (port : Port) (s : State) : Out :=
  .next (happen s (fun d => d.onPort port fabTransmit))

end Sys2Proof.Machine
end

