-- ==== Sys2Proof/Machine/Train.lean ====
section
/-! DEFINITION. Training: retraining passes and their pauses, the retraining of an entry to OPERATE, full training, and
TRAIN_NOW (chapter 10, R343 to R359). -/
namespace Sys2Proof.Machine
open Sys2Proof

/-! ### Passes (R350 to R354, R357) -/

/-- Retraining is active (R350). -/
def Dev.retrains (d : Dev) : Bool := d.ctl.mode = .operate || d.ctl.mode = .restore

/-- A channel on which a pass can begin: used, online and not in full training. -/
def Mc.canPass (m : Mc) : Bool := m.used && !m.offline && !m.fullTrain

/-- A pass is to run; it starts with its first pause (R350). -/
def Dev.askPass (d : Dev) (c cause : Nat) : Dev :=
  d.onChan c (fun m => { m with pass := some { lane := 0, inPause := false, cause := cause, low := false, lost := false } })

/-- RETRAIN_PASS_START: a due time of task 1. A triggered pass that runs counts as the instance, started on time (R353). -/
def execRetrainPassStart (channel : Nat) (s : State) : Out :=
  .next (happen s (fun d =>
    let m := d.chan channel
    if d.retrains && m.retrainEn && m.canPass then
      match m.pass with
      | none => d.askPass channel 0
      | some p => if p.cause = 0 then d else d.taskStart (4 + channel)
    else d))

/-- TRAIN_DONE (Table 10.4). -/
def Dev.trainDone (d : Dev) (c kind result : Nat) : Dev := d.emit 0x0810 (packBytes [(1, c), (1, kind), (1, result)])

/-- TRAIN_NOW KIND 0 on one channel: a pass at once, or after the one in progress; an offline channel fails (R357). -/
def Dev.trainPass (d : Dev) (c : Nat) : Dev :=
  let m := d.chan c
  if m.offline || m.fullTrain then d.trainDone c 0 2
  else if m.pass.isSome then d.onChan c (fun m => { m with passAsked := true })
  else d.askPass c 2

/-- TRAIN_NOW KIND 1 on one channel (R358, R359). -/
def Dev.trainFull (d : Dev) (c : Nat) : Dev := d.onChan c (fun m => { m with fullTrain := true })

/-- The channels TRAIN_NOW names. -/
def Dev.trainNamed (d : Dev) (c : Nat) : List Nat := if c = 0xFF then (List.range 4).filter (fun n => (d.chan n).used) else [c]

/-- Whether TRAIN_NOW's parameters are valid (Table 5.10, R164). -/
def trainValid (c kind : Nat) (d : Dev) : Bool := kind ≤ 1 && (c = 0xFF || (c < 4 && (d.chan c).used))

/-- TRAIN_NOW (R164, R165, R357 to R359). -/
def trainCmd (x : Xact) (c kind : Nat) : Cmd :=
  { opcode := 0x32, len := fun k => k = 2, modes := inO, lock := fun _ => false, valid := trainValid c kind, query := false
    cond := fun sd => deny (kind = 1 && sd.ctl.hostPath), reply := fun _ _ => (stPending, []), modeChange := false, clear := fun d => d
    effect := fun _ d => Cmd.act (fun d => inO d && !(kind = 1 && d.ctl.hostPath)) (cmdVoid 0x32 x)
      (fun d => (d.trainNamed c).foldl (fun (d : Dev) n => if kind = 0 then d.trainPass n else d.trainFull n) d) d }

/-- TRAIN_NOW, KIND 0. -/
def execTrainNowPass (x : Xact) (channel : Byte) (s : State) : Out := .next (transact s x (trainCmd x channel.toNat 0))

/-- TRAIN_NOW with the KIND it carries. -/
def execTrainNowFull (x : Xact) (channel kind : Byte) (s : State) : Out :=
  .next (transact s x (trainCmd x channel.toNat kind.toNat))

/-! ### Save reads (R348) -/

/-- The device address of a location's burst on a used channel: the inverse of the map of R313 and R314. -/
def Dev.addressOf (d : Dev) (l : Loc) : Nat :=
  let (ranks, density) := d.geometry
  let rb := rankBytes density
  let o := l.row * 2 ^ 17 + l.bank * 2 ^ 15 + Nat.xor l.bg (l.row % 8) * 2 ^ 12 + l.column * 64
  let a := l.rank * rb + o
  let h := d.usedChannels.idxOf l.channel
  let ways := 2 ^ d.dcfg.ways.toNat
  let grain := grainBytes d.dcfg.grain
  h / ways * (ways * (ranks * rb)) + (a / grain * ways + h % ways) * grain + a % grain

/-- A burst of the training row of a rank: the highest row of bank group 7, bank 3 (R348). -/
def Dev.trainingBurst (d : Dev) (c rank column : Nat) : Nat :=
  d.addressOf { channel := c, rank := rank, bg := 7, bank := 3, row := rankBytes d.geometry.2 / 2 ^ 17 - 1, column := column % 64 } / 64

/-- A burst of the training row is written back as it was read. -/
def Dev.writeBack (d : Dev) (burst : Nat) (raw : List Byte) : Dev :=
  let tag := (d.tagOf burst).getD 0
  d.writeBurst tag burst (xtsOut tag burst raw)

/-- A save read: a corrected codeword is counted and written back as corrected, an uncorrectable one acts as R372 says (R348, R370).
`back` tells whether the burst is written back. -/
def Dev.saveRead (d : Dev) (c : Nat) (back : Bool) (r : SaveRead) : Dev :=
  let b := d.trainingBurst c r.rank r.column
  match d.readBurst ((d.tagOf b).getD 0) b r.errors with
  | .ok _ k wrong => (match wrong with | some raw => if back then d.writeBack b raw else d | none => d).counted c b k
  | .bad cw _ => (if back then d.writeBack b (rsBytes cw) else d).uncorrectableAt c 22 b cw

/-- A save read finds an uncorrectable codeword. -/
def Dev.saveBad (d : Dev) (c : Nat) (r : SaveRead) : Bool :=
  match d.readBurst ((d.tagOf (d.trainingBurst c r.rank r.column)).getD 0) (d.trainingBurst c r.rank r.column) r.errors with
  | .bad _ _ => true
  | _ => false

/-- The save reads of a training. -/
def Dev.saveReads (d : Dev) (c : Nat) (back : Bool) (l : List SaveRead) : Dev := l.foldl (fun (d : Dev) r => d.saveRead c back r) d

/-! ### Pauses (R351, R352) -/

/-- A COIN command owed when a pause is due is issued first (R386). -/
def mcSettleCoin (m : Mc) : Mc :=
  m.coinOwed.foldl (fun (m : Mc) k => mcManage { channel := 0, rank := k.1, bg := k.2.1, bank := k.2.2, row := 0, column := 0 } m) m

/-- The measuring rank of a lane: the narrowest eye at the last full training, the lowest-numbered of equals (R351). -/
def Mc.measuring (m : Mc) (lane : Nat) : Nat :=
  let w := fun r => (m.rankEyes.getD lane []).getD r 256
  m.rankList.foldl (fun best r => if w r < w best then r else best) 0

/-- RETRAIN_PAUSE_START: with no unit owed the pause begins, a COIN command owed first, and PREab to every rank; with its first pause
the pass starts (R350, R351, R353). -/
def execRetrainPauseStart (channel : Nat) (s : State) : Out :=
  .next (happen s (fun d =>
    let m := d.chan channel
    match m.pass with
    | some p =>
      if d.retrains && m.running && !p.inPause && m.owed.all (· = 0) then
        let d1 := d.onChan channel (fun m => { (mcSettleCoin m).ownAll 5 with
          retraining := true, openRows := [], pass := some { p with inPause := true }
          passTemp := if p.lane = 0 then d.therm.tDie else m.passTemp })
        if p.cause = 0 && p.lane = 0 then d1.taskStart (4 + channel) else d1
      else d
    | none => d))

/-- TRAIN_MARGIN for a width below 32 steps (R352). -/
def Dev.margin (d : Dev) (c lane dir : Nat) (width : Option Nat) : Dev :=
  match width with
  | some w => if w < 32 then d.emit 0x0811 (packBytes [(1, c), (1, lane), (1, 0), (1, dir), (1, w)]) else d
  | none => d

/-- A training loss freezes the channel (R352, R372). -/
def Dev.trainingLoss (d : Dev) (c rank lane : Nat) (write : Bool) : Dev :=
  if (d.chan c).frozen then d
  else d.freeze c 3 (d.captureWords c 3 22 { channel := c, rank := rank, bg := 0, bank := 0, row := 0, column := 0 } 0 [] lane write)

/-- The edges of a lane at point 0. -/
def Mc.edge (m : Mc) (lane : Nat) : LaneEdges := m.edges.getD lane { rdLow := 0, rdHigh := 0, wrLow := 0, wrHigh := 0 }

/-- What a pause measured in reading, and in writing (R351). -/
def Mc.pauseEyes (m : Mc) (lane : Nat) (r : PauseResult) : Option (Nat × Nat) × Option (Nat × Nat) :=
  (measured (m.edge lane).rdLow (m.edge lane).rdHigh r.rdLow r.rdHigh, measured (m.edge lane).wrLow (m.edge lane).wrHigh r.wrLow r.wrHigh)

/-- The width of measured edges. -/
def widthOf (e : Option (Nat × Nat)) : Option Nat := e.map (fun (p : Nat × Nat) => p.2 + 1 - p.1)

/-- A training loss: a width below 8 steps, or an edge outside the tested delays (R352). -/
def lostEye (e : Option (Nat × Nat)) : Bool := match widthOf e with | some w => w < 8 | none => true

/-- A width below 32 steps. -/
def lowEye (e : Option (Nat × Nat)) : Bool := match widthOf e with | some w => w < 32 | none => false

/-- A direction of a lane after a pause: its delay moved, and the width; a direction with a lost edge stays (R352; log entry 59). -/
def pauseMove (delay eye : Nat) (e : Option (Nat × Nat)) : Nat × Nat :=
  match e with
  | some (a, b) => (moveDelay delay (eyeDelay (a, b + 1 - a)), b + 1 - a)
  | none => (delay, eye)

/-- The lane's word and edges after a pause (R352). -/
def Mc.pauseLane (m : Mc) (lane : Nat) (r : PauseResult) : Mc :=
  let e := m.pauseEyes lane r
  let w := m.train.getD (2 * lane) 0
  let rd := pauseMove (wordRd w) (wordRdEye w) e.1
  let wr := pauseMove (wordWr w) (wordWrEye w) e.2
  { m with
    train := listUpd m.train (2 * lane) (fun _ => trainWord rd.1 wr.1 rd.2 wr.2)
    edges := listUpd m.edges lane (fun (k : LaneEdges) =>
      { rdLow := (e.1.map (·.1)).getD k.rdLow, rdHigh := (e.1.map (·.2)).getD k.rdHigh
        wrLow := (e.2.map (·.1)).getD k.wrLow, wrHigh := (e.2.map (·.2)).getD k.wrHigh }) }

/-- What a pause does to its lane. -/
def Dev.pauseLane (d : Dev) (c lane : Nat) (r : PauseResult) : Dev :=
  let e := (d.chan c).pauseEyes lane r
  let d1 := d.onChan c (fun m => (m.pauseLane lane r).trainLog)
  let d2 := (d1.margin c lane 0 (widthOf e.1)).margin c lane 1 (widthOf e.2)
  if lostEye e.1 || lostEye e.2 then d2.trainingLoss c ((d.chan c).measuring lane) lane (!lostEye e.1) else d2

/-- The end of a pass (R350, R354, R357, R382), and the pass that waits for it. -/
def Dev.passDone (d : Dev) (c : Nat) (p : Pass) : Dev :=
  let d1 := d.onChan c (fun m => { m with
    pass := none, passAsked := false, retrains := satInc m.retrains, trainedSinceFreeze := m.trainedSinceFreeze || !p.lost })
  let d2 := if p.cause = 2 then d1.trainDone c 0 (if p.lost then 2 else if p.low then 1 else 0) else d1
  if (d.chan c).passAsked then d2.askPass c 2 else d2

/-- A pause ends: with an uncorrectable save read before any write (R386), else with its lane measured. The fifth ends the pass, in
every mode (R350); any other outside OPERATE and RESTORE stops it (R354). -/
def Dev.pauseDone (d : Dev) (c : Nat) (p : Pass) (r : PauseResult) : Dev :=
  let bad := r.saves.any (d.saveBad c)
  let e := (d.chan c).pauseEyes p.lane r
  let d0 := (d.onChan c (fun m => { m with retraining := false })).saveReads c (!bad) r.saves
  let d1 := if bad then d0 else d0.pauseLane c p.lane r
  let q : Pass := if bad then { p with inPause := false, lane := p.lane + 1 }
    else { p with
      inPause := false, lane := p.lane + 1, low := p.low || lowEye e.1 || lowEye e.2, lost := p.lost || lostEye e.1 || lostEye e.2 }
  if 5 ≤ q.lane then d1.passDone c q
  else if !d.retrains then d1.onChan c (fun m => { m with pass := none })
  else d1.onChan c (fun m => { m with pass := some q })

/-- RETRAIN_PAUSE_DONE. -/
def execRetrainPauseDone (channel : Nat) (result : PauseResult) (s : State) : Out :=
  .next (happen s (fun d =>
    match (d.chan channel).pass with
    | some p => if p.inPause then d.pauseDone channel p result else d
    | none => d))

/-! ### Cause 1 and its end (R586) -/

/-- A channel still holds cause 1. -/
def Mc.holdsCause (m : Mc) : Bool := m.used && (m.offline || m.untrained)

/-- The end of cause 1 on its last channel. -/
def Dev.endCauseTrain (d : Dev) : Dev :=
  if d.mc.any Mc.holdsCause then { d with ctl := { d.ctl with retrainFailed := d.mc.any (fun m => m.used && m.untrained) } }
  else
    let d1 := { d with ctl := { d.ctl with retrainFailed := false } }
    if d.ctl.causeFixed || d.dcfg.reference.isNone then d1 else d1.clearCause 1

/-! ### The retraining of an entry to OPERATE (R355, R356, R555, R585) -/

/-- The used channels that are online. -/
def Dev.onlineChannels (d : Dev) : List Nat := (List.range 4).filter (fun c => (d.chan c).used && !(d.chan c).offline)

/-- Point 0 of every online channel is replaced, its DRAM contents kept; RETRAINS counts (R348, R354, R355). -/
def Dev.entryWords (d : Dev) (sweeps : List (List LaneSweep)) (saves : List (List SaveRead)) : Dev :=
  d.onlineChannels.foldl (fun (d : Dev) c => (d.saveReads c true (saves.getD c [])).onChan c (fun m =>
    { (m.retrain (sweeps.getD c [])).trainLog with retrains := satInc m.retrains })) d

/-- R356 and R555: every channel back on point 1, TRAIN_DONE failed, and SAFEHOLD. A resume in place first returns to the mode
SAVE interrupted; from SAFEHOLD it reports SAVE_RESUMED alone. -/
def Dev.entryFailed (d : Dev) (for_ : EntryFor) (failed : List Nat) : Dev :=
  let d1 := failed.foldl (fun (d : Dev) c => d.onChan c (fun m => { m with untrained := true })) (d.onPoint1 true)
  let d2 := { d1 with ctl := { d1.ctl with retrainFailed := true, entry := none, entrySwitching := false } }
  let report := fun (d : Dev) (key : Nat) => failed.foldl (fun (d : Dev) c => d.emitAt key 0x0810 (packBytes [(1, c), (1, 2), (1, 2)])) d
  match for_ with
  | .resume =>
    let d3 := { d2 with ctl := { d2.ctl with safeholdCauses := d2.ctl.safeholdCauses ||| 2 } }
    if d.sav.from_ = .safehold then d3.resume else (report d3 0x0110).resume
  | _ => (report d2 0x0810).latchCause 1

/-- R355 with every lane at 32 steps or more. -/
def Dev.entryTrained (d : Dev) (for_ : EntryFor) : Dev :=
  let d1 := { (d.onPoint1 false) with mc := (d.onPoint1 false).mc.map (fun (m : Mc) => { m with untrained := false }) }
  (if d.ctl.retrainFailed then d1.endCauseTrain else d1).entryFinish for_

/-- ENTRY_RETRAIN_DONE: the sweeps and save reads of the four channels. A save read whose freeze has brought SAFEHOLD has ended the
entry (R372, R541), and nothing more follows. -/
def execEntryRetrainDone (sweeps : List (List LaneSweep)) (saves : List (List SaveRead)) (s : State) : Out :=
  .next (happen s (fun d =>
    match d.ctl.entry with
    | some f =>
      if d.ctl.entrySwitching || d.clk.switching || d.mc.any (·.fullTrain) then d
      else
        let d1 := d.entryWords sweeps saves
        if d1.ctl.entry.isNone then d1
        else
        let failed := d1.onlineChannels.filter (fun c => !pointValid (d1.chan c).train 0)
        if failed.isEmpty then d1.entryTrained f else d1.entryFailed f failed
    | none => d))

/-! ### Full training (R358, R359) -/

/-- Cause 1 ends where a retraining failure stood (R586). -/
def Dev.endRetrainCause (d : Dev) : Dev := if d.ctl.retrainFailed then d.endCauseTrain else d

/-- The stages of Table 9.3 that a list of outcomes runs, up to the one that fails or to stage `last`: whether none failed, and the
channel after them; none where the list stops short. -/
def fullRun (last : Nat) (temp : Int) : List DramOutcome → Mc → Option (Bool × Mc)
  | [], _ => none
  | o :: t, m =>
    match mcStage m o temp with
    | none => none
    | some (false, k) => some (false, k)
    | some (true, k) => if k.stage = last then some (true, k) else fullRun last temp t k

/-- Full training of an online channel: both points replaced, or both kept; the training row's bursts are read first and written back,
and the channel changes its rate on its own (R348, R358). -/
def Dev.fullOnline (d : Dev) (c : Nat) (outcomes : List DramOutcome) (saves : List SaveRead) : Dev :=
  match fullRun 5 d.therm.tDie outcomes { d.chan c with stage := 4, point1Done := false } with
  | none => d
  | some (good, k) =>
    let back := (d.chan c).onPoint1
    let d0 := (((d.saveReads c true saves).chanRate c true).chanRate c false).chanRate c back
    if good then
      ((d0.onChan c (fun m => { m with
        fullTrain := false, train := k.train, vref := k.vref, ca := k.ca, edges := k.edges, rankEyes := k.rankEyes, commands := k.commands
        trainedSinceFreeze := true, untrained := false, passTemp := d.therm.tDie })).trainDone c 1 0).endRetrainCause
    else (d0.onChan c (fun m => { m with fullTrain := false, commands := k.commands })).trainDone c 1 2

/-- An offline channel stays offline: RANKS and DENSITY report what it found before the stage that failed (R308, R359). -/
def Dev.fullFailed (d : Dev) (c stage : Nat) (k : Mc) : Dev :=
  let d1 := d.onChan c (fun m => { m with fullTrain := false, ranks := k.ranks, density := k.density, train := k.train, commands := k.commands })
  ((d1.emit 0x0800 (d1.geometryParam c 2)).emit 0x0801 (packBytes [(1, c), (1, stage)])).trainDone c 1 2

/-- The keeper area stops being deferred with the last offline channel: stages 5 to 7 of discovery run (R424). -/
def Dev.undefer (d : Dev) : Dev :=
  if d.mc.any (fun m => m.used && m.offline) then d
  else { d with img := { d.img with deferred := false, stage := 5 } }

/-- An offline channel comes online (R359). -/
def Dev.fullRestored (d : Dev) (c : Nat) (k : Mc) : Dev :=
  let d1 := d.onChan c (fun _ => yokeRestart { k with
    fullTrain := false, offline := false, trained := true, stage := 7, trainedSinceFreeze := true, untrained := false, onPoint1 := d.clk.src
    owed := [0, 0, 0, 0], overdue := [0, 0, 0, 0], bankDone := [0, 0, 0, 0], forced := [false, false, false, false]
    selfRefresh := d.clk.switching, openRows := [] })
  let d2 := (d1.emit 0x0800 (d1.geometryParam c (bit d1.dcfg.opReduced 0))).trainDone c 1 0
  if d.dcfg.reference.isNone then d2 else d2.undefer.endCauseTrain

/-- OP_RATE is reduced for 3 or 4 ranks when no channel is online that runs at it (R305; log entry 62). -/
def Dev.fullRate (d : Dev) (k : Mc) : Dev :=
  if 2 ≤ k.ranks.toNat && 1 < d.dcfg.opRate.toNat && d.onlineChannels.isEmpty then { d with dcfg := { d.dcfg with opRate := 1, opReduced := true } } else d

/-- Full training of an offline channel: stages 2 to 6; without a reference channel stage 6 keeps only Table 9.1 (R359). -/
def Dev.fullOffline (d : Dev) (c : Nat) (outcomes : List DramOutcome) : Dev :=
  match fullRun 6 d.therm.tDie outcomes { d.chan c with stage := 2, point1Done := false, ranks := 0, density := 0 } with
  | none => d
  | some (false, k) => (d.fullRate k).fullFailed c k.stage k
  | some (true, k) =>
    let d1 := d.fullRate k
    let same := d.dcfg.reference.isNone || (k.ranks = d.dcfg.refRanks && k.density = d.dcfg.refDensity)
    if same && tableOk k d1.dcfg.opRate then d1.fullRestored c k else d1.fullFailed c 6 k

/-- An engine's chunk in progress touches a channel (R358). -/
def Dev.chunkOn (d : Dev) (c : Nat) : Bool :=
  (List.range 4).any (fun n => match (d.engine n).run, (d.engine n).job with
    | some x, some _ =>
      (x.readBursts (d.engine n).runChunk.toNat ++ x.writeBursts (d.engine n).runChunk.toNat).any (fun b => d.channelOf b = c)
    | _, _ => false)

/-- FULL_TRAIN_DONE, with the outcome of each stage the training ran: point 1 and point 0 of stage 4 on an online channel, stages 2
to 5 on an offline one. Training starts after the pass and the chunks in progress, so it does not end before them. -/
def execFullTrainDone (channel : Nat) (outcomes : List DramOutcome) (saves : List SaveRead) (s : State) : Out :=
  .next (happen s (fun d =>
    let m := d.chan channel
    if !m.fullTrain then d
    else if m.offline then d.fullOffline channel outcomes
    else if m.pass.isSome || d.chunkOn channel then d
    else d.fullOnline channel outcomes saves))

end Sys2Proof.Machine
end

