-- ==== Sys2Proof/Machine/Thermal.lean ====
section
/-! DEFINITION. The thermal unit, the histogram, the periodic tasks' late due times (chapter 19, R51, R52, R353, R419). -/
namespace Sys2Proof.Machine
open Sys2Proof

/-! ### Temperatures (R645, R650) -/

/-- T_DIE: the mean of the last 100 scans (Table 19.5; log entry 21 for its rounding). -/
def meanDie (l : List Int) (old : Int) : Int :=
  if l.isEmpty then old else l.foldl (· + ·) 0 / (l.length : Int)

/-- A reading of a remote diode that is no fault (R650). -/
def diodeGood (r : Option Int) : Bool := match r with | some t => -55 ≤ t && t ≤ 175 | none => false

/-- T_TDn of a diode. -/
def diodeTemp (used : Bool) (r : Option Int) : Int := if used && diodeGood r then r.getD 0 else -128

/-- Diodes in use that have a fault, as a mask. -/
def Therm.faults (t : Therm) : BitVec 4 :=
  BitVec.ofNat 4 ((List.range 4).foldl (fun acc i => acc + bit (t.tdUsed.getLsbD i && !diodeGood (t.tdRaw.getD i (some 0))) i) 0)

/-- The readings of an evaluation: T_DIE, T_TDn, T_MAX_SEEN and the minute's highest (R656). -/
def Therm.read (t : Therm) : Therm :=
  let die := meanDie t.scans t.tDie
  { t with
    tDie := die, tMax := max t.tMax die, minuteMax := max t.minuteMax die
    td := (List.range 4).map (fun i => diodeTemp (t.tdUsed.getLsbD i) (t.tdRaw.getD i (some 0)))
    tdFaulty := t.faults }

/-- TD_FAULT, once per fault (R650). -/
def Dev.diodeEvents (d : Dev) (before : BitVec 4) : Dev :=
  (List.range 4).foldl (fun (d : Dev) i =>
    if d.therm.tdFaulty.getLsbD i && !before.getLsbD i then d.emit 0x1103 i else d) d

/-- TJ_OVER_LIMIT, once per excursion (R651). -/
def Dev.overLimitEval (d : Dev) : Dev :=
  let t := d.therm.tDie
  if !d.therm.overLimit && 151 ≤ t then ({ d with therm := { d.therm with overLimit := true } }).emit 0x1102 (tempByte t).toNat
  else if d.therm.overLimit && t < 150 then { d with therm := { d.therm with overLimit := false } }
  else d

/-! ### THERM_N (R648, R649) -/

/-- Diodes that take part in cause 2, by their readings. -/
def Therm.diodes (t : Therm) : List Int :=
  ((List.range 4).filter (fun i => t.tdUsed.getLsbD i && !t.tdFaulty.getLsbD i)).map (fun i => t.td.getD i (-128))

/-- The causes after an evaluation (Table 19.9). -/
def Dev.thermCauses (d : Dev) : BitVec 3 :=
  let t := d.therm
  let die := t.tDie
  let c0 := if t.causes.getLsbD 0 then !(die < t.off.toNat) else decide ((t.on.toNat : Int) ≤ die)
  let c1 := d.mc.any (·.overTemp)
  let c2 := t.diodes.any (fun x => decide ((if t.causes.getLsbD 2 then 90 else 95) ≤ x))
  BitVec.ofNat 3 (bit c0 0 + bit c1 1 + bit c2 2)

/-- THERM_N follows its causes. -/
def Dev.thermPin (d : Dev) : Dev :=
  let c := d.thermCauses
  let on := c ≠ 0
  let d1 := { d with therm := { d.therm with causes := c, active := on, events := if on && !d.therm.active then satInc d.therm.events else d.therm.events } }
  if on && !d.therm.active then d1.emit 0x1100 c.toNat else if !on && d.therm.active then d1.emit 0x1101 0 else d1

/-! ### What follows the temperature (R353, R419) -/

/-- The temperature trigger of a channel (R353). -/
def Dev.tempTrigger (d : Dev) (c : Nat) : Dev :=
  let m := d.chan c
  if m.tempTrigEn && m.canPass && m.pass.isNone && d.retrains && 8 ≤ (d.therm.tDie - m.passTemp).natAbs then
    (d.askPass c 1).onChan c (fun m => { m with tempRetrains := satInc m.tempRetrains })
  else d

/-- SCRUB_INTERVAL from the highest T_DIE of 24 h; a change makes the last pass's start the anchor (R419). DESIGN CHOICE (log entry 69): until
there are readings of 24 h, a shorter interval loaded from the wear record holds. -/
def Dev.scrubInterval (d : Dev) : Dev :=
  let now := scrubHoursOf (d.therm.minutes.foldl max d.therm.minuteMax)
  let h := if d.therm.minutes.length < 1440 && d.img.scrubHours < now then d.img.scrubHours else now
  if h = d.img.scrubHours then d
  else
    let d1 := { d with img := { d.img with scrubHours := h } }
    if d.img.lastScrubMs = 0 then d1 else d1.onTask 10 (fun k => { k with anchor := some d.img.lastScrubMs })

/-- THERMAL_EVAL: every 1 ms. -/
def execThermalEval (s : State) : Out :=
  .next (happen s (fun d =>
    let d1 := { d with therm := d.therm.read }
    let d2 := ((d1.diodeEvents d.therm.tdFaulty).overLimitEval).thermPin
    ((List.range 4).foldl (fun (d : Dev) c => d.tempTrigger c) d2).scrubInterval))

/-- HIST_MINUTE (R656): the bin of the minute's highest T_DIE counts, and the minute joins the last 24 h. -/
def execHistMinute (s : State) : Out :=
  .next (happen s (fun d =>
    let t := d.therm
    { d with therm := { t with
        hist := listUpd t.hist (histBin t.minuteMax) satInc, minutes := (t.minutes ++ [t.minuteMax]).drop (t.minutes.length + 1 - 1440)
        minuteMax := t.tDie } }))

/-! ### Late periodic work (R50 to R52) -/

/-- A task of Table 2.6 by its code and channel, where it is active now; refresh counts its own due times (R332). -/
def Dev.activeTask (d : Dev) (task channel : Nat) : Option Nat :=
  let o := d.ctl.mode = .operate
  let h := d.ctl.mode = .safehold
  if task = 1 then (if d.retrains && (d.chan channel).retrainEn && (d.chan channel).used && channel < 4 then some (4 + channel) else none)
  else if task = 2 then (if o then some 8 else none)
  else if task = 3 then (if o || h then some 9 else none)
  else if task = 4 then (if o || h then some 10 else none)
  else none

/-- TASK_DUE_MISSED. -/
def execTaskDueMissed (task channel : Nat) (s : State) : Out :=
  .next (happen s (fun d =>
    match d.activeTask task channel with
    | some t => d.taskMissed t
    | none => d))

end Sys2Proof.Machine
end

