-- ==== Sys2Proof/Machine/Package.lean ====
section
/-! DEFINITION. The package: the boundary-scan port, the levels the device drives on its pins (Table 3.10), and the ball map
(Tables 3.2 to 3.8). -/
namespace Sys2Proof.Machine
open Sys2Proof

/-! ### Boundary scan (R69) -/

/-- The TAP controller of IEEE 1149.1 on a rising TCK edge. -/
def Tap.next : Tap → Bool → Tap
  | .testLogicReset, tms => if tms then .testLogicReset else .runTestIdle
  | .runTestIdle, tms => if tms then .selectDr else .runTestIdle
  | .selectDr, tms => if tms then .selectIr else .captureDr
  | .captureDr, tms => if tms then .exit1Dr else .shiftDr
  | .shiftDr, tms => if tms then .exit1Dr else .shiftDr
  | .exit1Dr, tms => if tms then .updateDr else .pauseDr
  | .pauseDr, tms => if tms then .exit2Dr else .pauseDr
  | .exit2Dr, tms => if tms then .updateDr else .shiftDr
  | .updateDr, tms => if tms then .selectDr else .runTestIdle
  | .selectIr, tms => if tms then .testLogicReset else .captureIr
  | .captureIr, tms => if tms then .exit1Ir else .shiftIr
  | .shiftIr, tms => if tms then .exit1Ir else .shiftIr
  | .exit1Ir, tms => if tms then .updateIr else .pauseIr
  | .pauseIr, tms => if tms then .exit2Ir else .pauseIr
  | .exit2Ir, tms => if tms then .updateIr else .shiftIr
  | .updateIr, tms => if tms then .selectDr else .runTestIdle

/-- A shift state, in which TDO is driven. -/
def Tap.shifting (t : Tap) : Bool := t = .shiftDr || t = .shiftIr

/-- The port after a TCK edge, or with TRST_N low; what a shift state drives is an open value (log entry 4). -/
def Jtag.tick (j : Jtag) (tms trstN : Bool) : Jtag :=
  let t := if trstN then j.tap.next tms else Tap.testLogicReset
  { tap := t, tdo := if t.shifting then some (Config.tdoLevel j.shifts) else none, shifts := if t.shifting then j.shifts + 1 else j.shifts }

/-- JTAG_TCK, with VDD_IO up; the port stands outside the data plane, and what TDI shifts in is not described (log entry 22). -/
def execJtagTck (tms _tdi trstN : Bool) (s : State) : Out :=
  .next (if s.d.ctl.mode = .unpowered || s.d.ctl.domainsDown.getLsbD 6 then s
    else { s with d := { s.d with jtag := s.d.jtag.tick tms trstN } })

/-! ### Signals (Tables 3.9 and 3.10) -/

/-- The I/O classes (Table 3.9). -/
inductive IoClass where
  | pod11 | cmos11 | ltt12 | ser32 | hcsl | io18 | aon18 | aod | ana
  deriving DecidableEq, Repr

/-- Directions. -/
inductive Dir where
  | input | output | both | passive
  deriving DecidableEq, Repr

/-- The supply domain of a signal. -/
inductive Domain where
  | vddqMc | vccqNf | vddFab | vddhFab | vddIo | vddAon
  deriving DecidableEq, Repr

/-- The states Table 3.10 gives: what the device drives, or what it makes of an input. -/
inductive PinState where
  | z | low | high | active | idle | beacon | sequencer | protective | selected | shift | ignored | monitored | sampled | latched | lowIn | none
  deriving DecidableEq, Repr

/-- A row of Table 3.10: its reset, SAVE and unpowered states, and how an unused signal is connected. -/
structure Signal where
  names : List String
  dir : Dir
  cls : IoClass
  domain : Domain
  reset : PinState
  save : PinState
  unpowered : PinState
  unused : String
  deriving DecidableEq, Repr

/-- Table 3.10. -/
def signalsDram : List Signal :=
  [⟨["MCx_DQ[31:0]", "MCx_CB[7:0]"], .both, .pod11, .vddqMc, .z, .active, .z, "Open"⟩,
   ⟨["MCx_DQS_T[4:0]", "MCx_DQS_C[4:0]"], .both, .pod11, .vddqMc, .z, .active, .z, "Open"⟩,
   ⟨["MCx_CA[13:0]", "MCx_CS_N[3:0]"], .output, .pod11, .vddqMc, .low, .active, .z, "Open"⟩,
   ⟨["MCx_CK_T[3:0]", "MCx_CK_C[3:0]"], .output, .pod11, .vddqMc, .low, .active, .z, "Open"⟩,
   ⟨["MCx_RESET_N"], .output, .cmos11, .vddqMc, .low, .high, .z, "Open"⟩,
   ⟨["MCx_ALERT_N"], .input, .pod11, .vddqMc, .ignored, .monitored, .z, "Open"⟩,
   ⟨["MCx_LBDQ", "MCx_LBDQS"], .input, .pod11, .vddqMc, .ignored, .ignored, .z, "Open"⟩,
   ⟨["MCx_RZQ"], .passive, .ana, .vddqMc, .none, .none, .none, "240 ohm 1 % to VSS when used; direct to VSS when unused"⟩,
   ⟨["MCx_VREF_MON"], .output, .ana, .vddqMc, .z, .z, .z, "Open, or a test point loaded by at least 1 Mohm"⟩]

/-- Table 3.10, NAND and fabric. -/
def signalsNandFabric : List Signal :=
  [⟨["NFy_DQ[7:0]", "NFy_DQS_T", "NFy_DQS_C"], .both, .ltt12, .vccqNf, .low, .active, .z, "Open"⟩,
   ⟨["NFy_RE_T", "NFy_RE_C", "NFy_WE_N", "NFy_ALE", "NFy_CLE"], .output, .ltt12, .vccqNf, .low, .active, .z, "Open"⟩,
   ⟨["NFy_CE_N[3:0]"], .output, .ltt12, .vccqNf, .low, .active, .z, "Open"⟩,
   ⟨["NFy_WP_N"], .output, .ltt12, .vccqNf, .low, .protective, .z, "Open"⟩,
   ⟨["FP_TXP[7:0]", "FP_TXN[7:0]"], .output, .ser32, .vddFab, .idle, .idle, .z, "Open"⟩,
   ⟨["FP_RXP[7:0]", "FP_RXN[7:0]"], .input, .ser32, .vddFab, .ignored, .ignored, .z, "Open"⟩,
   ⟨["FAB_REXT"], .passive, .ana, .vddhFab, .none, .none, .none, "Required: 200 ohm 1 % to VSS"⟩,
   ⟨["REFCLK_P", "REFCLK_N"], .input, .hcsl, .vddIo, .ignored, .monitored, .z, "Required"⟩,
   ⟨["FRESET_A_N", "FRESET_B_N"], .input, .io18, .vddIo, .ignored, .ignored, .z, "Tie to VSS to hold the port in reset"⟩]

/-- Table 3.10, the always-on and management signals. -/
def signalsBoard : List Signal :=
  [⟨["EM_SCK", "EM_CS_N", "EM_DI"], .input, .io18, .vddIo, .ignored, .active, .z, "Required; 10 kohm pull-up on EM_CS_N"⟩,
   ⟨["EM_DO"], .output, .io18, .vddIo, .z, .selected, .z, "Required"⟩,
   ⟨["ATTN_N"], .output, .aod, .vddAon, .z, .active, .z, "Open"⟩,
   ⟨["PFAIL_N"], .input, .aon18, .vddAon, .ignored, .monitored, .z, "10 kohm pull-up to VDD_AON"⟩,
   ⟨["RESET_N"], .input, .aon18, .vddAon, .lowIn, .latched, .z, "Required"⟩,
   ⟨["HERD_SYNC"], .both, .aod, .vddAon, .z, .active, .z, "10 kohm pull-up to VDD_AON"⟩,
   ⟨["IR_TX"], .output, .aod, .vddAon, .z, .beacon, .z, "Open"⟩,
   ⟨["IR_RX"], .input, .aon18, .vddAon, .ignored, .active, .z, "Tie to VDD_AON"⟩,
   ⟨["PS_EN[15:0]"], .output, .aon18, .vddAon, .low, .sequencer, .z, "Open"⟩,
   ⟨["PS_PG[15:0]"], .input, .aon18, .vddAon, .ignored, .active, .z, "Tie to VSS"⟩,
   ⟨["PS_VS[15:0]"], .input, .ana, .vddAon, .ignored, .sampled, .z, "Tie to VSS"⟩,
   ⟨["VIN_SNS", "VSTORE_SNS", "ICHG_SNS"], .input, .ana, .vddAon, .ignored, .sampled, .z, "Required"⟩,
   ⟨["TD0", "TD1", "TD2", "TD3"], .input, .ana, .vddAon, .ignored, .sampled, .z, "Tie to VSS"⟩,
   ⟨["CHG_EN"], .output, .aon18, .vddAon, .low, .low, .z, "Required"⟩,
   ⟨["CHG_ISET"], .output, .aon18, .vddAon, .z, .low, .z, "Strap resistor required"⟩,
   ⟨["THERM_N"], .output, .aod, .vddAon, .z, .active, .z, "Open"⟩,
   ⟨["TCK", "TRST_N"], .input, .io18, .vddIo, .active, .active, .z, "TRST_N to VSS"⟩,
   ⟨["TMS", "TDI"], .input, .io18, .vddIo, .active, .active, .z, "Open"⟩,
   ⟨["TDO"], .output, .io18, .vddIo, .z, .shift, .z, "Open"⟩,
   ⟨["TEST_EN"], .input, .io18, .vddIo, .none, .none, .z, "Tie to VSS"⟩,
   ⟨["TEST_CK"], .input, .io18, .vddIo, .sampled, .ignored, .z, "Strap resistor required"⟩]

/-- Every signal of Table 3.10. -/
def signals : List Signal := signalsDram ++ signalsNandFabric ++ signalsBoard

/-! ### Pin levels (Table 3.10) -/

/-- What an output ball carries; `active` is driven with the traffic of its interface. -/
inductive Level where
  | low | high | z | idle | active
  deriving DecidableEq, Repr

/-- A supply domain is within its range (Table 3.14); VDD_AON keeps the device out of UNPOWERED. -/
def Dev.domainUp (d : Dev) (m : Domain) : Bool :=
  d.ctl.mode ≠ .unpowered && (match m with
    | .vddqMc => !d.ctl.domainsDown.getLsbD 2
    | .vccqNf => !d.ctl.domainsDown.getLsbD 3
    | .vddFab => !d.ctl.domainsDown.getLsbD 4
    | .vddhFab => !d.ctl.domainsDown.getLsbD 5
    | .vddIo => !d.ctl.domainsDown.getLsbD 6
    | .vddAon => true)

/-- A level in the reset state, from assertion of RESET_N to the end of CONFIG, with its domain down, and otherwise (R69, R71). -/
def Dev.pin (d : Dev) (m : Domain) (reset : Level) (running : Level) : Level :=
  if !d.domainUp m then .z else if d.alive then running else reset

/-- An active-low open-drain output. -/
def openDrain (pull : Bool) : Level := if pull then .low else .z

/-- ATTN_N: asserted while the event queue is not empty, from the end of CONFIG (R8, R18, R130). -/
def Dev.attnPin (d : Dev) : Level := d.pin .vddAon .z (openDrain d.attn)
/-- THERM_N (R648, R649). -/
def Dev.thermNPin (d : Dev) : Level := d.pin .vddAon .z (openDrain d.therm.active)
/-- HERD_SYNC as the device drives it (R510). -/
def Dev.herdPin (d : Dev) : Level := d.pin .vddAon .z (openDrain d.herd.pulling)
/-- IR_TX sinks or is released in a blink; a frame and a host pattern sink in its cycles of the carrier (R601, R613). -/
def Dev.irPin (d : Dev) : Level := d.pin .vddAon .z (openDrain (match d.roo.tx with | .free => false | .blink on => on | _ => true))
/-- PS_EN[i] (R482). -/
def Dev.psEnPin (d : Dev) (i : Nat) : Level := d.pin .vddAon .low (if (d.slot i).enabled then .high else .low)
/-- CHG_EN (R491). -/
def Dev.chgEnPin (d : Dev) : Level := d.pin .vddAon .low (if d.egy.chgEn then .high else .low)
/-- CHG_ISET: high impedance until sampled, then low until the charger runs; its duty is ISET (R82, R491). -/
def Dev.chgIsetPin (d : Dev) : Level :=
  d.pin .vddAon (if d.ident.sampled then .low else .z) (if d.egy.chgEn then .high else .low)

/-- The byte EM_DO carries in byte `n` of a transaction: high impedance with EM_CS_N high, and where the port does not answer; 0x00
outside the reply packet (R18, R92, R93). -/
def Dev.emDoByte (d : Dev) (csLow : Bool) (n : Nat) : Option Byte :=
  if !csLow || !d.portLive then none
  else some (match d.eu.reply with | some r => r.emDo.getD n 0 | none => 0)

/-- EM_DO between transactions, EM_CS_N being high (R92). -/
def Dev.emDoPin (d : Dev) (csLow : Bool) : Level := d.pin .vddIo .z (if csLow && d.portLive then .active else .z)

/-- TDO: driven in the shift states, and not in reset and CONFIG (R69, R71). -/
def Dev.tdoPin (d : Dev) : Level := d.pin .vddIo .z (match d.jtag.tdo with | some true => .high | some false => .low | none => .z)

/-- A program is outstanding on a NAND channel: copies that are programming, and the slots, headers and records being written.
System copies lie on channels 0 and 2 (R397). -/
def Dev.nandPrograms (d : Dev) (y : Nat) : Bool :=
  d.img.copies.any (fun k => k.job.isNone && k.copyGen ≠ 0 && (targetOf k.slot).1 = y)
    || d.img.ops.any (fun o => match o.2 with
      | .mapSlot a _ => (targetOf a).1 = y
      | .marker primary _ => y = (if primary then 0 else 2)
      | .reserve primary _ => y = (if primary then 0 else 2)
      | .header primary _ => y = (if primary then 0 else 2)
      | .records _ => (y = 0 && !d.ringLost true) || (y = 2 && !d.ringLost false)
      | _ => false)

/-- An erase is outstanding on a NAND channel. -/
def Dev.nandErases (d : Dev) (y : Nat) : Bool := d.img.erases.any (fun g => (targetOf g).1 = y)

/-- NFy_WP_N: high only while a program or erase is outstanding on the channel, low in every sequenced shutdown (R73). -/
def Dev.nandWpPin (d : Dev) (y : Nat) : Level :=
  d.pin .vccqNf .low (if d.rail.shut.isNone && (d.nandPrograms y || d.nandErases y) then .high else .low)

/-- A NAND channel carries traffic: in stage 1 of the IMAGE step, and from then on with a target present. The balls of a channel without
targets keep their reset levels (log entry 63). -/
def Dev.nandOn (d : Dev) (y : Nat) : Bool := d.img.stage = 1 || (List.range 4).any (fun n => d.img.targetMap.getLsbD (4 * y + n))

/-- NFy_DQ, DQS, RE, WE_N, ALE, CLE and CE_N. -/
def Dev.nandPin (d : Dev) (y : Nat) : Level := d.pin .vccqNf .low (if d.nandOn y then .active else .low)

/-- A DRAM channel's devices are driven: used, not offline, and at stage 2 or past it (R307). -/
def Dev.dramOn (d : Dev) (c : Nat) : Bool := (d.chan c).used && !(d.chan c).offline && 2 ≤ (d.chan c).stage

/-- MCx_DQ, CB and DQS: high impedance on a channel that is not driven (log entry 63). -/
def Dev.mcDataPin (d : Dev) (c : Nat) : Level := d.pin .vddqMc .z (if d.dramOn c then .active else .z)
/-- MCx_CA, CS_N and CK: an offline channel's clocks are stopped (R307). -/
def Dev.mcCommandPin (d : Dev) (c : Nat) : Level := d.pin .vddqMc .low (if d.dramOn c then .active else .low)
/-- MCx_RESET_N: low in reset and on an offline channel (R307). -/
def Dev.mcResetPin (d : Dev) (c : Nat) : Level := d.pin .vddqMc .low (if d.dramOn c then .high else .low)
/-- MCx_VREF_MON: high impedance in every state of Table 3.10. -/
def mcVrefPin : Level := .z

/-- FP_TX: electrical idle in reset and in DISABLED and DETECT, where SAVE keeps the ports from its clock switch on (R542; log entry 63);
with either fabric domain down high impedance. -/
def Dev.fabTxPin (d : Dev) (p : Port) : Level :=
  if !d.domainUp .vddhFab then .z
  else d.pin .vddFab .idle (if (d.port p).link = .disabled || (d.port p).link = .detect then .idle else .active)

/-! ### Balls (R58 to R65) -/

/-- The row letters, from A inward (R58). -/
def ballRows : List String :=
  ["A", "B", "C", "D", "E", "F", "G", "H", "J", "K", "L", "M", "N", "P", "T", "U", "V", "W", "Y", "AA", "AB", "AC", "AD", "AE",
    "AF", "AG", "AH", "AJ", "AK", "AL"]

/-- A signal name with an index. -/
def indexed (name : String) (i : Nat) : String := name ++ "[" ++ toString i ++ "]"

/-- The lane bit of a data ball: column `a`, `b` or `c` of tiers 1 to 4 (Table 3.4). -/
def laneBall (lane tier col : Nat) : String :=
  let dq := fun (n : Nat) => if lane < 4 then indexed "DQ" (8 * lane + n) else indexed "CB" n
  match tier, col with
  | 1, 0 => dq 0
  | 1, 1 => dq 1
  | 1, _ => if lane = 4 then "RESERVED" else "VSS"
  | 2, 0 => dq 2
  | 2, 1 => dq 3
  | 2, _ => indexed "DQS_T" lane
  | 3, 0 => dq 4
  | 3, 1 => dq 5
  | 3, _ => indexed "DQS_C" lane
  | _, 0 => dq 6
  | _, 1 => "VDDQ_MC"
  | _, _ => dq 7

/-- The command group by tier and offset (Table 3.5). -/
def commandBall (tier k : Nat) : String :=
  if tier = 5 then
    if k ≤ 12 then (if k % 3 = 1 then indexed "CK_T" (k / 3) else if k % 3 = 2 then indexed "CK_C" (k / 3) else "VSS")
    else ["LBDQ", "LBDQS", "VSS"].getD (k - 13) "VSS"
  else if tier = 6 then (if k ≤ 14 then indexed "CA" (k - 1) else "VDDQ_MC")
  else if k ≤ 4 then indexed "CS_N" (k - 1)
  else ["VSS", "RESET_N", "ALERT_N", "VSS", "RZQ", "VREF_MON", "VSS", "VDDQ_MC", "VSS", "VSS", "VSS"].getD (k - 5) "VSS"

/-- A ball of a DRAM zone by tier and offset (R62). -/
def dramBall (c tier k : Nat) : String :=
  let n := if tier ≤ 4 then laneBall ((k - 1) / 3) tier ((k - 1) % 3) else commandBall tier k
  if n = "VSS" || n = "VDDQ_MC" || n = "RESERVED" then n else "MC" ++ toString c ++ "_" ++ n

/-- A ball of a NAND channel pair (Table 3.6). -/
def nandBall (y : Nat) (second : Bool) (col : Nat) : String :=
  let n := if second then
      ["VSS", "RE_T", "RE_C", "WE_N", "ALE", "CLE", "WP_N", "CE_N[0]", "CE_N[1]", "CE_N[2]", "CE_N[3]", "VCCQ_NF"].getD (col - 1) ""
    else ["VSS", "DQ[0]", "DQ[1]", "DQ[2]", "DQ[3]", "DQS_T", "DQS_C", "DQ[4]", "DQ[5]", "DQ[6]", "DQ[7]", "VCCQ_NF"].getD (col - 1) ""
  if col = 1 then (if (y = 0 && !second) || (y = 7 && second) then "RESERVED" else "VSS")
  else if col = 12 then n else "NF" ++ toString y ++ "_" ++ n

/-- A ball of the fabric zone, by its row within H to AD and its column (Table 3.7). -/
def fabricBall (i col : Nat) : String :=
  let p := if i < 8 then "FA" else "FB"
  match col with
  | 23 => if [1, 5, 7, 9, 12, 14].contains i then "VDDH_FAB" else "VDD_FAB"
  | 24 => if i = 7 then "REFCLK_P" else if i = 8 then "REFCLK_N" else if i = 15 then "FAB_REXT" else "VSS"
  | 25 => indexed (p ++ "_RXN") (i % 8)
  | 26 => indexed (p ++ "_RXP") (i % 8)
  | 28 => indexed (p ++ "_TXN") (i % 8)
  | 29 => indexed (p ++ "_TXP") (i % 8)
  | 30 => if i = 0 || i = 15 then "RESERVED" else "VSS"
  | _ => "VSS"

/-- A ball of the centre zone, by its row within H to AD and its place k = 0 to 9 (Table 3.8). -/
def centreBall (i k : Nat) : String :=
  match i with
  | 0 => indexed "PS_EN" k
  | 1 => if k < 6 then indexed "PS_EN" (10 + k) else indexed "PS_PG" (k - 6)
  | 2 => indexed "PS_PG" (4 + k)
  | 3 => if k < 2 then indexed "PS_PG" (14 + k) else indexed "PS_VS" (k - 2)
  | 4 => if k < 8 then indexed "PS_VS" (8 + k) else "VSS"
  | 5 => if k < 6 then "VDD_IO" else "VDD_AON"
  | 6 => "VDD_SRAM"
  | 8 => if k % 2 = 0 then "VDD_CORE" else "VSS"
  | 10 => if k % 2 = 0 then "VDD_CORE" else "VSS"
  | 12 => if k % 2 = 0 && k < 8 then "VDD_CORE" else "VSS"
  | 13 => ["EM_SCK", "EM_CS_N", "EM_DI", "EM_DO", "ATTN_N", "FRESET_A_N", "FRESET_B_N", "RESET_N", "PFAIL_N", "HERD_SYNC"].getD k ""
  | 14 => ["TCK", "TMS", "TDI", "TDO", "TRST_N", "TEST_EN", "TEST_CK", "THERM_N", "IR_TX", "IR_RX"].getD k ""
  | 15 => ["VIN_SNS", "VSTORE_SNS", "ICHG_SNS", "TD0", "TD1", "TD2", "TD3", "VSS", "CHG_EN", "CHG_ISET"].getD k ""
  | _ => "VDD_CORE"

/-- The ball at row index 0 to 29 (A to AL) and column 1 to 30 (Table 3.3). -/
def ballAt (row col : Nat) : String :=
  if row < 7 then (if col ≤ 15 then dramBall 0 (row + 1) (16 - col) else dramBall 1 (row + 1) (col - 15))
  else if 23 ≤ row then (if col ≤ 15 then dramBall 2 (30 - row) (16 - col) else dramBall 3 (30 - row) (col - 15))
  else if col ≤ 12 then nandBall ((row - 7) / 2) ((row - 7) % 2 = 1) col
  else if col ≤ 22 then centreBall (row - 7) (col - 13)
  else fabricBall (row - 7) col

/-- The ball's name (R58). -/
def ballName (row col : Nat) : String := ballRows.getD row "" ++ toString col

end Sys2Proof.Machine
end

