-- ==== Sys2Proof/Machine/Rooster.lean ====
section
/-! DEFINITION. Rooster, the infrared service link of chapter 17. -/
namespace Sys2Proof.Machine
open Sys2Proof

/-! ### Host commands (R602, R616, Table 5.14) -/

/-- The host transmission pending or in progress, as (first bit, length). -/
def Roo.hostRange (r : Roo) : Option (Nat × Nat) :=
  match r.tx with
  | .host a n => some (a, n)
  | _ => r.hostPending

/-- Whether a load of `n` bytes from `offset` is refused: it reaches the frame area or a host transmission (R602, Table 17.9). -/
def rooLoadDenied (offset n : Nat) (d : Dev) : Bool :=
  384 < offset + n || (match d.roo.hostRange with | some (a, k) => overlaps (8 * offset) (8 * n) a k | none => false)

/-- Bits of bytes, most significant first. -/
def bitsOf (l : List Byte) : List Bool := l.flatMap (fun b => (List.range 8).map (fun i => b.getLsbD (7 - i)))

/-- ROOSTER_LOAD. -/
def execRoosterLoad (x : Xact) (offset : BitVec 16) (data : List Byte) (s : State) : Out :=
  let denied := rooLoadDenied offset.toNat data.length
  .next (transact s x
    { opcode := 0x58, len := fun k => 3 ≤ k && k ≤ 250, modes := inWO, lock := fun sd => sd.eu.locked
      valid := fun _ => offset.toNat ≤ 511 && offset.toNat + data.length ≤ 512, query := false
      cond := fun sd => deny (denied sd), reply := fun _ _ => (stOk, []), modeChange := false, clear := fun d => d
      effect := fun _ d => Cmd.act (fun d => inWO d && !denied d) (cmdVoid 0x58 x)
        (fun d => { d with roo := { d.roo with pattern := patternPut d.roo.pattern (8 * offset.toNat) (bitsOf data) } }) d })

/-- ROOSTER_SEND (R174, R616, R617). -/
def execRoosterSend (x : Xact) (start length : BitVec 16) (s : State) : Out :=
  .next (transact s x
    { opcode := 0x59, len := fun k => k = 4, modes := inOR, lock := fun _ => false
      valid := fun _ => start.toNat ≤ 4095 && 1 ≤ length.toNat && start.toNat + length.toNat ≤ 4096, query := false
      cond := fun sd => deny sd.roo.hostRange.isSome, reply := fun _ _ => (stOk, []), modeChange := false, clear := fun d => d
      effect := fun _ d => Cmd.act (fun d => inOR d && d.roo.hostRange.isNone) (cmdVoid 0x59 x)
        (fun d => { d with roo := { d.roo with hostPending := some (start.toNat, length.toNat) } }) d })

/-! ### Transmissions (R601, R604, R606, R613, R615) -/

/-- Encode a frame into the frame area. -/
def Dev.encodeFrame (d : Dev) (frame : List Byte) : Dev :=
  { d with roo := { d.roo with pattern := patternPut d.roo.pattern 3072 (frameBits frame) } }

/-- A transmission begins, with the carrier of this moment (R601). -/
def Dev.txBegin (d : Dev) (t : IrTx) : Dev :=
  let c := carrier d.roo.khz d.roo.duty
  { d with roo := { d.roo with tx := t, txPeriod := c.1, txOn := c.2 } }

/-- BEACON_DUE: a beacon falls due; at most one is pending (R606). -/
def execBeaconDue (s : State) : Out :=
  .next (happen s (fun d => if d.roo.beaconEn then { d with roo := { d.roo with beaconPending := true } } else d))

/-- The first pending activity starts: status page, beacon (not while a key is held), host transmission, blink (R615). -/
def Dev.txStart (d : Dev) : Dev :=
  match d.roo.statusPending with
  | some p => ({ d with roo := { d.roo with statusPending := none } }).encodeFrame (d.statusFrame p.toNat) |>.txBegin .statusPage
  | none =>
    if d.roo.beaconPending && !d.roo.keyHeld then
      ({ d with roo := { d.roo with beaconPending := false } }).encodeFrame d.beaconFrame |>.txBegin .beacon
    else match d.roo.hostPending with
      | some (a, n) => ({ d with roo := { d.roo with hostPending := none } }).txBegin (.host a n)
      | none =>
        if d.roo.blinkPending then
          (({ d with roo := { d.roo with blinkPending := false, blinking := true } }).txBegin (.blink true)).emit 0x0F85 1
        else d

/-- ROOSTER_TX_START. -/
def execRoosterTxStart (s : State) : Out := .next (happen s (fun d => if d.roo.tx = .free then d.txStart else d))

/-- ROOSTER_TX_END: the transmission in progress ends and IR_TX is released (R606, R616). -/
def execRoosterTxEnd (s : State) : Out :=
  .next (happen s (fun d =>
    let freed := { d with roo := { d.roo with tx := IrTx.free } }
    match d.roo.tx with
    | .beacon => { freed with roo := { freed.roo with beaconsSent := freed.roo.beaconsSent + 1 } }
    | .host _ _ => freed.emit 0x0F84 0
    | .statusPage => freed
    | .blink _ => d
    | .free => d))

/-! ### Receiving (R599, R600, R609 to R613) -/

/-- The receiver listens: IR_TX is not sending a frame or a pattern (R600); the 2 ms after are the sender's to keep. -/
def Roo.listens (r : Roo) : Bool := match r.tx with | .free => true | .blink _ => true | _ => false

/-- What an accepted key does (Table 17.5). -/
def Dev.keyAction (d : Dev) (key arg : Byte) : Dev :=
  if key = 1 then (if arg.toNat ≤ 3 then { d with roo := { d.roo with statusAsked := some arg } } else d)
  else if key = 2 then
    (if d.ctl.mode = .save || d.roo.blinking then d else { d with roo := { d.roo with blinkPending := true } })
  else d

/-- ROOSTER_KEY_FRAME (R599, R609, R611). -/
def execRoosterKeyFrame (target : BitVec 16) (key arg : Byte) (s : State) : Out :=
  .next (happen s (fun d =>
    if !d.roo.listens then d
    else
      let d1 := { d with roo := { d.roo with framesRx := satInc d.roo.framesRx } }
      if target ≠ d.roo.shortId then d1
      else
        (({ d1 with roo := { d1.roo with lastKey := key, lastArg := arg, repeats := 0, keyHeld := true } }).emit 0x0F80
          (packBytes [(1, key.toNat), (1, arg.toNat)])).keyAction key arg))

/-- ROOSTER_REPEAT_FRAME (R610, R612). -/
def execRoosterRepeatFrame (s : State) : Out :=
  .next (happen s (fun d =>
    if !d.roo.listens then d
    else if !d.roo.keyHeld then { d with roo := { d.roo with framesBad := satInc d.roo.framesBad } }
    else
      let n := satInc d.roo.repeats
      let d1 := { d with roo := { d.roo with framesRx := satInc d.roo.framesRx, repeats := n } }
      if d.roo.repeats = 17 && d.roo.lastKey = 3 && d.roo.alarm then
        ({ d1 with roo := { d1.roo with alarm := false } }).emit 0x0F83 d.topFaultNow.toNat
      else d1))

/-- ROOSTER_BAD_FRAME (R599). -/
def execRoosterBadFrame (s : State) : Out :=
  .next (happen s (fun d => if d.roo.listens then { d with roo := { d.roo with framesBad := satInc d.roo.framesBad } } else d))

/-- ROOSTER_OTHER_KIND_FRAME (R599, R603). -/
def execRoosterOtherKindFrame (s : State) : Out :=
  .next (happen s (fun d => if d.roo.listens then { d with roo := { d.roo with framesRx := satInc d.roo.framesRx } } else d))

/-- ROOSTER_KEY_RELEASE: 250 ms without a repeat (R610). -/
def execRoosterKeyRelease (s : State) : Out :=
  .next (happen s (fun d =>
    if d.roo.keyHeld then
      ({ d with roo := { d.roo with keyHeld := false } }).emit 0x0F81 (packBytes [(1, d.roo.lastKey.toNat), (1, d.roo.repeats.toNat)])
    else d))

/-- STATUS_PAGE_PENDING: 5 ms after the end of a STATUS key frame (R615). -/
def execStatusPagePending (s : State) : Out :=
  .next (happen s (fun d => match d.roo.statusAsked with
    | some p => { d with roo := { d.roo with statusAsked := none, statusPending := some p } }
    | none => d))

/-- ROOSTER_ALARM_EVAL: TOP_FAULT is evaluated; a change to a non-zero value latches the alarm (R608). -/
def execRoosterAlarmEval (s : State) : Out :=
  .next (happen s (fun d =>
    let t := d.topFaultNow
    let d1 := { d with roo := { d.roo with topFault := t } }
    if t ≠ d.roo.topFault && t ≠ 0 then ({ d1 with roo := { d1.roo with alarm := true } }).emit 0x0F82 t.toNat else d1))

/-- ROOSTER_BLINK_TOGGLE (R613). -/
def execRoosterBlinkToggle (s : State) : Out :=
  .next (happen s (fun d => match d.roo.tx with
    | .blink b => { d with roo := { d.roo with tx := .blink (!b) } }
    | _ => d))

/-- ROOSTER_IDENTIFY_END: 10 s after the last IDENTIFY (R613). -/
def execRoosterIdentifyEnd (s : State) : Out :=
  .next (happen s (fun d =>
    if d.roo.blinking then ({ d with roo := { d.roo with blinking := false, tx := IrTx.free } }).emit 0x0F85 0 else d))

end Sys2Proof.Machine
end

