-- ==== Sys2Proof/Machine/Dispatch.lean ====
section
/-! DEFINITION. One arm per command: a direct call of its meaning. -/
namespace Sys2Proof.Machine
open Sys2Proof

def exec (i : Instr) (s : State) : Host.Outcome State Fault Refusal :=
  match i with
  | .nop x => Sys2Proof.Machine.execNop x s
  | .ident x => Sys2Proof.Machine.execIdent x s
  | .attest x nonce done => Sys2Proof.Machine.execAttest x nonce done s
  | .fetch x tagByte => Sys2Proof.Machine.execFetch x tagByte s
  | .eventPop x count => Sys2Proof.Machine.execEventPop x count s
  | .ledgerRead x addr => Sys2Proof.Machine.execLedgerRead x addr s
  | .ledgerReadBlock x addr count => Sys2Proof.Machine.execLedgerReadBlock x addr count s
  | .ledgerWrite x addr value => Sys2Proof.Machine.execLedgerWrite x addr value s
  | .ledgerModify x addr mask value => Sys2Proof.Machine.execLedgerModify x addr mask value s
  | .portEnWrite x port value => Sys2Proof.Machine.execPortEnWrite x port value s
  | .admitModeWrite x value => Sys2Proof.Machine.execAdmitModeWrite x value s
  | .taskPeriodWrite x addr value => Sys2Proof.Machine.execTaskPeriodWrite x addr value s
  | .modeRequestOpen x target => Sys2Proof.Machine.execModeRequestOpen x target s
  | .modeRequestClose x target path => Sys2Proof.Machine.execModeRequestClose x target path s
  | .saveArm x => Sys2Proof.Machine.execSaveArm x s
  | .saveDisarm x => Sys2Proof.Machine.execSaveDisarm x s
  | .saveNow x => Sys2Proof.Machine.execSaveNow x s
  | .restoreBegin x param => Sys2Proof.Machine.execRestoreBegin x param s
  | .restoreAdmit x => Sys2Proof.Machine.execRestoreAdmit x s
  | .safeholdEnter x => Sys2Proof.Machine.execSafeholdEnter x s
  | .safeholdRelease x => Sys2Proof.Machine.execSafeholdRelease x s
  | .regionStage x region enable base limit rights attr => Sys2Proof.Machine.execRegionStage x region enable base limit rights attr s
  | .regionCommit x => Sys2Proof.Machine.execRegionCommit x s
  | .epochQuery x epoch => Sys2Proof.Machine.execEpochQuery x epoch s
  | .copySubmit x engine rsv desc => Sys2Proof.Machine.execCopySubmit x engine rsv desc s
  | .copyCancel x engine rsv descId => Sys2Proof.Machine.execCopyCancel x engine rsv descId s
  | .copyResume x engine => Sys2Proof.Machine.execCopyResume x engine s
  | .channelThaw x channel => Sys2Proof.Machine.execChannelThaw x channel s
  | .diagFetch x channel rsv offset count done => Sys2Proof.Machine.execDiagFetch x channel rsv offset count done s
  | .trainNowPass x channel => Sys2Proof.Machine.execTrainNowPass x channel s
  | .trainNowFull x channel kind => Sys2Proof.Machine.execTrainNowFull x channel kind s
  | .imageInfo x => Sys2Proof.Machine.execImageInfo x s
  | .imageDiscard x generation => Sys2Proof.Machine.execImageDiscard x generation s
  | .checkpointFlush x => Sys2Proof.Machine.execCheckpointFlush x s
  | .keyInstall x key check => Sys2Proof.Machine.execKeyInstall x key check s
  | .keyRotateImage x => Sys2Proof.Machine.execKeyRotateImage x s
  | .keyRotateDomain x target => Sys2Proof.Machine.execKeyRotateDomain x target s
  | .keyStatusSummary x => Sys2Proof.Machine.execKeyStatusSummary x s
  | .keyStatusCert x select => Sys2Proof.Machine.execKeyStatusCert x select s
  | .bind x generation key check => Sys2Proof.Machine.execBind x generation key check s
  | .railLoad x section_ first count entries => Sys2Proof.Machine.execRailLoad x section_ first count entries s
  | .railRun x sequence => Sys2Proof.Machine.execRailRun x sequence s
  | .snapshotReadDie x index done => Sys2Proof.Machine.execSnapshotReadDie x index done s
  | .snapshotReadFlash x index source done => Sys2Proof.Machine.execSnapshotReadFlash x index source done s
  | .energyTestCapacitance x => Sys2Proof.Machine.execEnergyTestCapacitance x s
  | .energyTestCalibrate x kind => Sys2Proof.Machine.execEnergyTestCalibrate x kind s
  | .herdConfigJoin x param policy tStall => Sys2Proof.Machine.execHerdConfigJoin x param policy tStall s
  | .herdConfigLeave x param policy tStall => Sys2Proof.Machine.execHerdConfigLeave x param policy tStall s
  | .roosterLoad x offset data => Sys2Proof.Machine.execRoosterLoad x offset data s
  | .roosterSend x start length => Sys2Proof.Machine.execRoosterSend x start length s
  | .lock x => Sys2Proof.Machine.execLock x s
  | .badSync => Sys2Proof.Machine.execBadSync s
  | .transactionAbandon badCrc => Sys2Proof.Machine.execTransactionAbandon badCrc s
  | .resultReady tag => Sys2Proof.Machine.execResultReady tag s
  | .resetNRelease => Sys2Proof.Machine.execResetNRelease s
  | .configDone fuses => Sys2Proof.Machine.execConfigDone fuses s
  | .strapSample strap0 strap1 => Sys2Proof.Machine.execStrapSample strap0 strap1 s
  | .resetNAssert open_ => Sys2Proof.Machine.execResetNAssert open_ s
  | .vddAonLoss => Sys2Proof.Machine.execVddAonLoss s
  | .pllLock deviation => Sys2Proof.Machine.execPllLock deviation s
  | .dramStageDone channel outcome => Sys2Proof.Machine.execDramStageDone channel outcome s
  | .imageStageDone outcome => Sys2Proof.Machine.execImageStageDone outcome s
  | .domainFault domain open_ => Sys2Proof.Machine.execDomainFault domain open_ s
  | .domainGood domain => Sys2Proof.Machine.execDomainGood domain s
  | .refclkLost => Sys2Proof.Machine.execRefclkLost s
  | .refclkBack => Sys2Proof.Machine.execRefclkBack s
  | .clkSwitchDone => Sys2Proof.Machine.execClkSwitchDone s
  | .hoscMeasure deviation => Sys2Proof.Machine.execHoscMeasure deviation s
  | .fresetAssert port => Sys2Proof.Machine.execFresetAssert port s
  | .pfailNQualified => Sys2Proof.Machine.execPfailNQualified s
  | .seqEvaluate => Sys2Proof.Machine.execSeqEvaluate s
  | .saveDrainDone => Sys2Proof.Machine.execSaveDrainDone s
  | .saveRateDone => Sys2Proof.Machine.execSaveRateDone s
  | .saveAbandonWaitDone => Sys2Proof.Machine.execSaveAbandonWaitDone s
  | .railGood slot => Sys2Proof.Machine.execRailGood slot s
  | .railOff slot => Sys2Proof.Machine.execRailOff slot s
  | .railOffTimeout slot => Sys2Proof.Machine.execRailOffTimeout slot s
  | .railUpTimeout slot => Sys2Proof.Machine.execRailUpTimeout slot s
  | .seqStepTimeout => Sys2Proof.Machine.execSeqStepTimeout s
  | .seqWaitTimeExpire => Sys2Proof.Machine.execSeqWaitTimeExpire s
  | .seqDelayExpire slot => Sys2Proof.Machine.execSeqDelayExpire slot s
  | .retryGapExpire => Sys2Proof.Machine.execRetryGapExpire s
  | .railFault slot cause => Sys2Proof.Machine.execRailFault slot cause s
  | .adcScan scan => Sys2Proof.Machine.execAdcScan scan s
  | .eAvailUpdate => Sys2Proof.Machine.execEAvailUpdate s
  | .chargerWindow => Sys2Proof.Machine.execChargerWindow s
  | .chargerRetry => Sys2Proof.Machine.execChargerRetry s
  | .energyTestStart => Sys2Proof.Machine.execEnergyTestStart s
  | .energyTestStepDone => Sys2Proof.Machine.execEnergyTestStepDone s
  | .energyTestTimeout => Sys2Proof.Machine.execEnergyTestTimeout s
  | .linkDetect port termination => Sys2Proof.Machine.execLinkDetect port termination s
  | .tb1Rx port symbols => Sys2Proof.Machine.execTb1Rx port symbols s
  | .tb2Rx port symbols locked => Sys2Proof.Machine.execTb2Rx port symbols locked s
  | .eqPresetStep port eye locked => Sys2Proof.Machine.execEqPresetStep port eye locked s
  | .linkTrainTimeout port => Sys2Proof.Machine.execLinkTrainTimeout port s
  | .retrainTimeout port => Sys2Proof.Machine.execRetrainTimeout port s
  | .blockLockLost port lane => Sys2Proof.Machine.execBlockLockLost port lane s
  | .psoRx port => Sys2Proof.Machine.execPsoRx port s
  | .rd64 port hdr crc => Sys2Proof.Machine.execRd64 port hdr crc s
  | .rd256 port hdr crc => Sys2Proof.Machine.execRd256 port hdr crc s
  | .wr64 port hdr data crc => Sys2Proof.Machine.execWr64 port hdr data crc s
  | .wr256 port hdr data crc => Sys2Proof.Machine.execWr256 port hdr data crc s
  | .ack port hdr crc => Sys2Proof.Machine.execAck port hdr crc s
  | .nak port hdr crc => Sys2Proof.Machine.execNak port hdr crc s
  | .credit port hdr crc => Sys2Proof.Machine.execCredit port hdr crc s
  | .packetCrcError port hdr data crc => Sys2Proof.Machine.execPacketCrcError port hdr data crc s
  | .requestAdmit fa fb => Sys2Proof.Machine.execRequestAdmit fa fb s
  | .completionSend port => Sys2Proof.Machine.execCompletionSend port s
  | .replayTimeout port => Sys2Proof.Machine.execReplayTimeout port s
  | .ackTimer port => Sys2Proof.Machine.execAckTimer port s
  | .creditTimer port => Sys2Proof.Machine.execCreditTimer port s
  | .channelCommandSlot channel input => Sys2Proof.Machine.execChannelCommandSlot channel input s
  | .refreshTick channel rank => Sys2Proof.Machine.execRefreshTick channel rank s
  | .mr4Poll channel readings => Sys2Proof.Machine.execMr4Poll channel readings s
  | .rowIdleClose channel rank bankGroup bank => Sys2Proof.Machine.execRowIdleClose channel rank bankGroup bank s
  | .yokeWindowEnd channel => Sys2Proof.Machine.execYokeWindowEnd channel s
  | .alertNParity channel rank => Sys2Proof.Machine.execAlertNParity channel rank s
  | .captureKeeperCopy channel => Sys2Proof.Machine.execCaptureKeeperCopy channel s
  | .retrainPassStart channel => Sys2Proof.Machine.execRetrainPassStart channel s
  | .retrainPauseStart channel => Sys2Proof.Machine.execRetrainPauseStart channel s
  | .retrainPauseDone channel result => Sys2Proof.Machine.execRetrainPauseDone channel result s
  | .entryRetrainDone sweeps saves => Sys2Proof.Machine.execEntryRetrainDone sweeps saves s
  | .fullTrainDone channel outcomes saves => Sys2Proof.Machine.execFullTrainDone channel outcomes saves s
  | .copyChunkStart engine => Sys2Proof.Machine.execCopyChunkStart engine s
  | .copyChunkDone engine internalFault => Sys2Proof.Machine.execCopyChunkDone engine internalFault s
  | .dirtyRecount => Sys2Proof.Machine.execDirtyRecount s
  | .trickleStart => Sys2Proof.Machine.execTrickleStart s
  | .flashProgramDone op pass => Sys2Proof.Machine.execFlashProgramDone op pass s
  | .flashEraseDone group pass => Sys2Proof.Machine.execFlashEraseDone group pass s
  | .flashReadDone op reads altered => Sys2Proof.Machine.execFlashReadDone op reads altered s
  | .flashTargetLost channel target => Sys2Proof.Machine.execFlashTargetLost channel target s
  | .periodicCommitDue => Sys2Proof.Machine.execPeriodicCommitDue s
  | .recordSetTimer => Sys2Proof.Machine.execRecordSetTimer s
  | .dayRollover => Sys2Proof.Machine.execDayRollover s
  | .gcRelocateStart => Sys2Proof.Machine.execGcRelocateStart s
  | .scrubPassStart => Sys2Proof.Machine.execScrubPassStart s
  | .goatUnitStart => Sys2Proof.Machine.execGoatUnitStart s
  | .goatGranuleStart => Sys2Proof.Machine.execGoatGranuleStart s
  | .sectorVerdict granule sector elapsed => Sys2Proof.Machine.execSectorVerdict granule sector elapsed s
  | .verdictTimeout granule sector => Sys2Proof.Machine.execVerdictTimeout granule sector s
  | .trngFault test => Sys2Proof.Machine.execTrngFault test s
  | .bindDone entries reads altered => Sys2Proof.Machine.execBindDone entries reads altered s
  | .herdLineFall => Sys2Proof.Machine.execHerdLineFall s
  | .herdSettleExpire => Sys2Proof.Machine.execHerdSettleExpire s
  | .herdGrabExpire => Sys2Proof.Machine.execHerdGrabExpire s
  | .herdHoldExpire => Sys2Proof.Machine.execHerdHoldExpire s
  | .herdArmExpire => Sys2Proof.Machine.execHerdArmExpire s
  | .herdStall => Sys2Proof.Machine.execHerdStall s
  | .herdLineRise lowLength => Sys2Proof.Machine.execHerdLineRise lowLength s
  | .herdLineFault => Sys2Proof.Machine.execHerdLineFault s
  | .beaconDue => Sys2Proof.Machine.execBeaconDue s
  | .roosterTxStart => Sys2Proof.Machine.execRoosterTxStart s
  | .roosterTxEnd => Sys2Proof.Machine.execRoosterTxEnd s
  | .roosterKeyFrame target key arg => Sys2Proof.Machine.execRoosterKeyFrame target key arg s
  | .roosterRepeatFrame => Sys2Proof.Machine.execRoosterRepeatFrame s
  | .roosterBadFrame => Sys2Proof.Machine.execRoosterBadFrame s
  | .roosterKeyRelease => Sys2Proof.Machine.execRoosterKeyRelease s
  | .statusPagePending => Sys2Proof.Machine.execStatusPagePending s
  | .roosterAlarmEval => Sys2Proof.Machine.execRoosterAlarmEval s
  | .roosterBlinkToggle => Sys2Proof.Machine.execRoosterBlinkToggle s
  | .roosterIdentifyEnd => Sys2Proof.Machine.execRoosterIdentifyEnd s
  | .thermalEval => Sys2Proof.Machine.execThermalEval s
  | .histMinute => Sys2Proof.Machine.execHistMinute s
  | .taskDueMissed task channel => Sys2Proof.Machine.execTaskDueMissed task channel s
  | .pfailNRelease => Sys2Proof.Machine.execPfailNRelease s
  | .fresetRelease port => Sys2Proof.Machine.execFresetRelease port s
  | .badOpcode x opcode => Sys2Proof.Machine.execBadOpcode x opcode s
  | .roosterOtherKindFrame => Sys2Proof.Machine.execRoosterOtherKindFrame s
  | .jtagTck tms tdi trstN => Sys2Proof.Machine.execJtagTck tms tdi trstN s

end Sys2Proof.Machine
end

