-- ==== Sys2Proof/Safety.lean ====
section
/-! DEFINITION. What a safe state is, and when a unit of the device is the same before and after a command, in the terms the
statements use. -/
namespace Sys2Proof
open Machine

/-- The invariant of the block between steps: DRAM in canonical form, at most 32 queued events (R131), and nothing of a cycle left
undone. -/
def Inv (s : State) : Prop := memWf s.d.mem ∧ s.d.eu.queue.length ≤ 32 ∧ s.d.out = Outbox.none

/-- The units of the device, as the chapters of the spec divide it. -/
inductive Part where
  | plane | mode | clock | ident | ports | regions | engines | channels | dram | config | image | cipher | rails | adc | energy
  | admission | saving | restoring | herd | rooster | thermal | tasks | jtag
  deriving DecidableEq, Repr

/-- The management plane without what a cycle's end writes in it: the event queue, EVENT_LOST, STATE_SEQ, EVENT_OVERFLOW's
record and the reply of the latest transaction. -/
def planeOf (e : Eu) : Eu := { e with queue := [], lost := 0, stateSeq := 0, overflowSeen := false, reply := none }

/-- The image store without what Mule's work of every cycle may write (chapter 11). -/
def imageOf (i : Img) : Img :=
  { i with gmap := [], copies := [], ops := [], nextOp := 0, commitAsked := [], commit := none, batch := [], tokens := 0, trickled := 0
           trickleRun := false, flush := none, copyGen := 0, changed := false, flags := 0, relocs := [], erases := [], shareCredit := 0
           wroteHeader := false, seqReserve := 0, primary := { i.primary with next := 0 }, secondary := { i.secondary with next := 0 } }

/-- A unit is the same in `b` as in `a`, but for what the data plane does in every cycle whatever happens in it: a decided
request moves to its completion queue, a GUARD hold or an over state begins or ends, EPOCH_DRAINED is reported, HERD_SYNC is
driven, Mule works, a task gets its anchor, and a RESTORE with nothing left ends (R581: mode, engines, channels, clock, refresh tasks and the RESTORE itself). -/
def Part.same (p : Part) (a b : Dev) : Prop :=
  match p with
  | .plane => planeOf b.eu = planeOf a.eu
  | .mode => (a.ctl.mode ≠ .restore → b.ctl = a.ctl)
      ∧ { b.ctl with mode := .operate, entry := none, entrySwitching := false }
        = { a.ctl with mode := .operate, entry := none, entrySwitching := false }
  | .clock => (a.ctl.mode ≠ .restore → b.clk = a.clk)
      ∧ { b.clk with switching := false, target := false } = { a.clk with switching := false, target := false }
  | .ident => b.ident = a.ident
  | .ports => { b.fa with inflight := [], cq := [] } = { a.fa with inflight := [], cq := [] }
      ∧ { b.fb with inflight := [], cq := [] } = { a.fb with inflight := [], cq := [] }
  | .regions => { b.reg with reported := 0 } = { a.reg with reported := 0 }
  | .engines => a.ctl.mode ≠ .restore → b.ce = a.ce
  | .channels => a.ctl.mode ≠ .restore → b.mc = a.mc
  | .dram => ∀ i, memRead b.mem i = memRead a.mem i
  | .config => b.dcfg = a.dcfg
  | .image => imageOf b.img = imageOf a.img
  | .cipher => { b.cip with goat := none, poison := [] } = { a.cip with goat := none, poison := [] }
  | .rails => b.rail = a.rail
  | .adc => b.adc = a.adc
  | .energy => { b.egy with cal1 := none } = { a.egy with cal1 := none }
  | .admission => { b.adm with holding := false, holdCount := 0, overLim := false }
      = { a.adm with holding := false, holdCount := 0, overLim := false }
  | .saving => { b.sav with taken := 0, short := none, phase := 0, finished := 0, programmed := 0, markerGen := 0, again := [] }
      = { a.sav with taken := 0, short := none, phase := 0, finished := 0, programmed := 0, markerGen := 0, again := [] }
  | .restoring => a.ctl.mode ≠ .restore → { b.rst with flight := [] } = { a.rst with flight := [] }
  | .herd => { b.herd with pulling := false } = { a.herd with pulling := false }
  | .rooster => b.roo = a.roo
  | .thermal => b.therm = a.therm
  | .tasks => a.ctl.mode ≠ .restore → b.tasks.map (fun t => { t with anchor := none }) = a.tasks.map (fun t => { t with anchor := none })
  | .jtag => b.jtag = a.jtag

/-- An event of Table 18.1 by its code and parameter. -/
def eventOf (code param : Nat) : Event := { code := BitVec.ofNat 16 code, param := BitVec.ofNat 48 param }

/-- An event is in the queue, unless the queue is full and so may have lost it (R131). -/
def Queued (code param : Nat) (d : Dev) : Prop := d.eu.queue.length < 32 → eventOf code param ∈ d.eu.queue

/-- Every unit but those named is the same. -/
def SameBut (l : List Part) (a b : Dev) : Prop := ∀ p, p ∉ l → p.same a b

end Sys2Proof
namespace Sys2Proof.Stmt
open Sys2Proof.Machine

/-! ### Commands and their replies -/

/-- `exec` answers a next state for the command, with the waiting commands as they were, and `P` holds of its device. -/
def Runs (c : Instr) (s : State) (P : Dev → Prop) : Prop :=
  ∃ t : State, exec c s = .next t ∧ t.pending = s.pending ∧ P t.d

/-- The management port answers, and the request arrives right (Table 4.9 checks 1, 2, 4, 7 and 8): its CRC, its reserved bit, `n` bytes
of the command's own parameters, and an expected STATE_SEQ, when it carries one, that the snapshot holds and that is the live one at the
commit edge (R118, R119). -/
def Sent (x : Xact) (n : Nat) (s : State) : Prop :=
  s.d.out = Outbox.none ∧ s.d.portLive = true ∧ (s.view x).alive = true ∧ x.crcOk = true ∧ x.rsv = false ∧ x.plen.toNat = n + (if x.seq.isSome then 4 else 0)
    ∧ ∀ q ∈ x.seq, q = (s.view x).eu.stateSeq ∧ q = s.seqAt x

/-- The data plane runs, with nothing of an earlier cycle left undone (an invariant of every step). -/
abbrev Live (s : State) : Prop := s.d.alive = true ∧ s.d.out = Outbox.none

/-- No RESTORE ends in this cycle. -/
abbrev RestoreStays (s : State) : Prop := s.d.ctl.mode = .restore → s.d.rst.unrestored ≠ []

/-- The reply of a transaction: it starts after the request and the wait bytes that the snapshot gives (R93, R99). -/
def replyOf (x : Xact) (s : State) (st : Byte) (p : List Word) : Option Reply :=
  some { before := requestBytes x + (s.view x).eu.waitBytes.toNat, tagByte := tagByteOf x, status := st, payload := p }

/-- A condition holds on the snapshot of a transaction and on the live device at its commit. -/
abbrev Both (x : Xact) (s : State) (p : Dev → Prop) : Prop := p (s.view x) ∧ p s.d

/-- The state after a transaction whose one effect is its reply. -/
def answered (x : Xact) (s : State) (st : Byte) (p : List Word) : State :=
  s.done { s.d with eu := { s.d.eu with reply := replyOf x s st p } }

/-- No mode-changing happening lies between the snapshot and the commit (R25). -/
abbrev Steady (x : Xact) (s : State) : Prop := modeMoved (s.view x) s.d = false

/-- The cycle of a happening leaves the device that its end makes of `a`: what the happening itself did to the device before it. -/
def Becomes (s : State) (a e : Dev) : Prop := e = endCycle s.d a.everyCycle

/-- The same of the cycle of a commit, which the latest happening may share (R627). -/
def CommitBecomes (x : Xact) (s : State) (a e : Dev) : Prop := e = endCommit (s.shared x) s.d a.everyCycle

/-- The data plane changes no bit of a Ledger word in the cycle of the commit (R124). -/
abbrev Unraced (x : Xact) (s : State) (a : Nat) : Prop := s.d.changedBits (s.shared x) a = 0

/-- A port that may leave DISABLED (Table 7.2), with REFCLK and the PLLs good. -/
abbrev mayWake (d : Dev) (f : Fab) : Prop :=
  f.link = .disabled ∧ f.enabled = true ∧ f.fresetLow = false ∧ d.ctl.domainsDown.getLsbD 4 = false ∧ d.ctl.domainsDown.getLsbD 5 = false

/-- A port is as `f` says, having sent `l` (of what it sent the newest 32 are looked at), but for its admitted requests and its completion queue; the other port is the same,
and so is every unit but the ports and those named. -/
def PortBecomes (p : Port) (f : Fab) (l : List Wire) (others : List Part) (s : State) (e : Dev) : Prop :=
  { e.port p with inflight := [], cq := [], sent := [] } = { f with inflight := [], cq := [], sent := [] }
    ∧ (e.port p).sent.drop ((e.port p).sent.length - 32) = (f.sent ++ l).drop (f.sent.length + l.length - 32)
    ∧ (∀ q, q ≠ p → { e.port q with inflight := [], cq := [] } = { s.d.port q with inflight := [], cq := [] })
    ∧ SameBut (.ports :: others) s.d e

/-- Mule has nothing to do: no copy, commit or flush is under way or asked for, and no re-key (chapters 11 and 12). -/
abbrev StoreQuiet (d : Dev) : Prop :=
  d.img.copies = [] ∧ d.img.commitAsked = [] ∧ d.img.commit = none ∧ d.img.flush = none ∧ d.img.trickleRun = false ∧ d.cip.goat = none

/-- Cause codes of Table 16.2: a device in SAFEHOLD for a cause. -/
def heldFor (cause : Nat) (e : Dev) : Prop :=
  e.ctl.mode = .safehold ∧ e.ctl.safeholdCauses.getLsbD cause = true ∧ Queued 0x0130 cause e

/-- A training exchange that starts anew. -/
def anew (f : Fab) (st : LinkState) : Fab := { f with link := st, tb1Good := 0, tb2Good := 0, tb2Sent := 0, tb2Last := 0 }

/-- A request of the receive buffer gone, with its credits returned, and the CREDIT packet that 32 units call for (R228). -/
def fabAfter (f : Fab) (rest : List Req) (cost : Nat) : Fab × List Wire :=
  let limit := f.rxLimit + BitVec.ofNat 16 cost
  if f.link = .active ∧ 32 ≤ (limit - f.lastCreditSent).toNat then
    ({ f with rx := rest, rxLimit := limit, lastCreditSent := limit }, [bare (creditHeader limit)])
  else ({ f with rx := rest, rxLimit := limit }, [])

/-- A measurement of HOSC outside ±3.0 % reports itself (R36). -/
def driftSeen (dev : BitVec 8) (e : Dev) : Prop :=
  e.clk.hoscDev = dev ∧ (e.clk.hoscOut = true ↔ dev.toInt < -30 ∨ 30 < dev.toInt)
    ∧ (e.clk.hoscOut = true → e.eu.hoscDriftSeen = true ∧ Queued 0x0142 dev.toNat e)

/-- A channel goes offline at a stage of the DRAM step, with cause 1 (R307, R308). -/
def wentOffline (c stage : Nat) (e : Dev) : Prop :=
  (e.chan c).offline = true ∧ (e.chan c).trained = false ∧ e.ctl.safeholdCauses.getLsbD 1 = true ∧ Queued 0x0801 (c * 256 + stage) e

/-- The rows that put one input before the sequencer, with the input and the condition under which they do (R479). -/
def inputOf (d : Dev) : Instr → Option SeqInput
  | .railOffTimeout n => match d.rail.shut with | some k => if k.left.head? = some n then some (.timer 4 n) else none | none => none
  | .railUpTimeout n => if (d.slot n).st = .enabling then some (.timer 3 n) else none
  | .seqStepTimeout => if d.attempting && (d.rail.waiting = 4 || d.rail.waiting = 5) then some (.timer 0 16) else none
  | .seqWaitTimeExpire => if d.attempting && d.rail.waiting = 3 then some (.timer 1 16) else none
  | .seqDelayExpire n => if d.attempting && d.rail.delaying.contains n then some (.timer 2 n) else none
  | .retryGapExpire => if d.rail.st = .retryWait then some (.timer 5 16) else none
  | _ => none

end Sys2Proof.Stmt
end

