-- ==== Sys2Proof/Certificates/Slice0/Obligations.lean ====
section
/-! DEFINITION. The statements about the model, from the numbered rules of the spec. -/
namespace Sys2Proof.Stmt
open Sys2Proof.Machine

/-- The transaction of a host command. -/
def xactOf : Instr → Option Xact
  | .nop x => some x
  | .ident x => some x
  | .attest x _ _ => some x
  | .fetch x _ => some x
  | .eventPop x _ => some x
  | .ledgerRead x _ => some x
  | .ledgerReadBlock x _ _ => some x
  | .ledgerWrite x _ _ => some x
  | .ledgerModify x _ _ _ => some x
  | .portEnWrite x _ _ => some x
  | .admitModeWrite x _ => some x
  | .taskPeriodWrite x _ _ => some x
  | .modeRequestOpen x _ => some x
  | .modeRequestClose x _ _ => some x
  | .saveArm x => some x
  | .saveDisarm x => some x
  | .saveNow x => some x
  | .restoreBegin x _ => some x
  | .restoreAdmit x => some x
  | .safeholdEnter x => some x
  | .safeholdRelease x => some x
  | .regionStage x _ _ _ _ _ _ => some x
  | .regionCommit x => some x
  | .epochQuery x _ => some x
  | .copySubmit x _ _ _ => some x
  | .copyCancel x _ _ _ => some x
  | .copyResume x _ => some x
  | .channelThaw x _ => some x
  | .diagFetch x _ _ _ _ _ => some x
  | .trainNowPass x _ => some x
  | .trainNowFull x _ _ => some x
  | .imageInfo x => some x
  | .imageDiscard x _ => some x
  | .checkpointFlush x => some x
  | .keyInstall x _ _ => some x
  | .keyRotateImage x => some x
  | .keyRotateDomain x _ => some x
  | .keyStatusSummary x => some x
  | .keyStatusCert x _ => some x
  | .bind x _ _ _ => some x
  | .railLoad x _ _ _ _ => some x
  | .railRun x _ => some x
  | .snapshotReadDie x _ _ => some x
  | .snapshotReadFlash x _ _ _ => some x
  | .energyTestCapacitance x => some x
  | .energyTestCalibrate x _ => some x
  | .herdConfigJoin x _ _ _ => some x
  | .herdConfigLeave x _ _ _ => some x
  | .roosterLoad x _ _ => some x
  | .roosterSend x _ _ => some x
  | .lock x => some x
  | .badOpcode x _ => some x
  | _ => none

/-- The commands Table 5.3 accepts in every mode the port answers in: NOP, IDENT, FETCH, EVENT_POP, the Ledger reads, EPOCH_QUERY,
IMAGE_INFO and KEY_STATUS; an unassigned opcode is refused before its mode is looked at. -/
def everywhere : Instr → Bool
  | .nop _ => true
  | .ident _ => true
  | .fetch _ _ => true
  | .eventPop _ _ => true
  | .ledgerRead _ _ => true
  | .ledgerReadBlock _ _ _ => true
  | .epochQuery _ _ => true
  | .imageInfo _ => true
  | .keyStatusSummary _ => true
  | .keyStatusCert _ _ => true
  | .badOpcode _ _ => true
  | _ => false

/-- The commands that the lock refuses whatever they carry (R134). -/
def locked : Instr → Bool
  | .railLoad _ _ _ _ _ => true
  | .herdConfigJoin _ _ _ _ => true
  | .herdConfigLeave _ _ _ _ => true
  | .keyInstall _ _ _ => true
  | .bind _ _ _ _ => true
  | .roosterLoad _ _ _ => true
  | .saveDisarm _ => true
  | .imageDiscard _ _ => true
  | _ => false

/-- Commands whose commit reduces RC fields, which STATE_SEQ does not count (R182), and the clock of the JTAG port, which is no
clock of the data plane. -/
def uncounted : Instr → Bool
  | .ledgerRead _ _ => true
  | .ledgerReadBlock _ _ _ => true
  | .ledgerModify _ _ _ _ => true
  | .jtagTck _ _ _ => true
  | _ => false

/-- STATE_SEQ before the cycle in which a command ends: a commit that falls in the cycle of the latest happening counts with it
(R117, R627). -/
def seqBefore (c : Instr) (s : State) : Word :=
  match xactOf c with
  | some x => s.seqAt x
  | none => s.d.eu.stateSeq

/-- No entry to SAVE, and none to STARTUP, lies in the course of a transaction (R109, R110). -/
abbrev Unstopped (x : Xact) (s : State) : Prop := entered .save (s.since x) = false ∧ entered .startup (s.since x) = false

/-- What a signed answer of ATTEST holds after its first words: KEY_ID, and an ECDSA P-384 signature over the nonce and all before it (R151). -/
def signedBy (d : Dev) (nonce : BitVec 384) (head : List Word) (r : Byte × List Word) : Prop :=
  ∃ k : List Nat, let body := head ++ words384 (keyIdOf d.ident.dus)
    let sig := ecdsaSign (identityKey d.ident.dus) (bytesOf 48 nonce.toNat ++ body.flatMap wordBytes) k
    r = (stOk, body ++ words384 sig.1 ++ words384 sig.2)

end Sys2Proof.Stmt
open Sys2Proof Sys2Proof.Machine Sys2Proof.Stmt

/-! ### The block: its queue, its reset state, what every step keeps -/

/-- A step runs the command at the front of the queue on the rest of the queue; an empty queue idles (log entry 1). Every command, in every
state, answers a next state and leaves the waiting commands as they are. -/
def Obligations.StepRunsFront : Prop :=
  (∀ (s : State) (c : Instr) (rest : List Instr),
    step { s with pending := c :: rest } = exec c { s with pending := rest }
      ∧ step { s with pending := [] } = .next { s with pending := [] })
    ∧ ∀ (s : State) (c : Instr), ∃ t : State, exec c s = .next t ∧ t.pending = s.pending

/-- R179 and Tables 6.3 to 6.15: the state after reset meets the invariant; every word with host-writable fields reads its reset value, the path is closed, SAVE is not armed and no event waits. -/
def Obligations.ResetState : Prop :=
  Inv State.reset
    ∧ (∀ p ∈ [(0x0008, 0x00002300), (0x0120, 0x00005A01), (0x0201, 0x00010803), (0x0301, 0x00010803), (0x0801, 0x10000A10),
      (0x0802, 0x00003C00), (0x0C04, 0x00640601), (0x0D14, 3), (0x0F80, 0x010A0026), (0x0F01, 100), (0x1006, 20000), (0x1009, 0x80),
      (0x1102, 0x0000828C), (0x00F0, 0), (0x0004, 0), (0x0104, 0), (0x0118, 0), (0x0600, 0), (0x0613, 0xFFFF)],
    State.reset.d.ledger p.1 = BitVec.ofNat 32 p.2)
    ∧ State.reset.d.ctl.mode = .startup ∧ State.reset.d.ctl.step = .config ∧ State.reset.d.ctl.hostPath = false
    ∧ State.reset.d.ctl.saveArmed = false ∧ State.reset.d.eu.queue = [] ∧ State.reset.pending = []

/-- Every step keeps the invariant: DRAM in canonical form, at most 32 queued events (R131), nothing of a cycle left undone. -/
def Obligations.StepKeepsInv : Prop := ∀ s t : State, Inv s → step s = .next t → Inv t

/-- R117: STATE_SEQ counts every change of the live state. A command that leaves a STATE_SEQ other than 0 as it was has changed
nothing that STATE_SEQ stamps: no unit and no byte of DRAM. For a commit that falls in the cycle of the latest happening, "was" is before that
cycle (R627). -/
def Obligations.StateSeqCertifies : Prop :=
  ∀ (c : Instr) (s t : State), uncounted c = false → exec c s = .next t → t.d.eu.stateSeq = seqBefore c s → seqBefore c s ≠ 0 →
    t.d.mem = s.d.mem ∧ { t.d.stamped with mem := [] } = { s.d.stamped with mem := [] }

/-- R117 and R182: in every command STATE_SEQ stays, goes up by one, or becomes 0. -/
def Obligations.StateSeqMovesByOne : Prop :=
  ∀ (c : Instr) (s t : State), exec c s = .next t →
    t.d.eu.stateSeq = s.d.eu.stateSeq ∨ t.d.eu.stateSeq = s.d.eu.stateSeq + 1 ∨ t.d.eu.stateSeq = 0

/-! ### Transactions that are refused (Table 4.9) -/

/-- R98, R112 and Table 4.10: a request of any command whose CRC is wrong is answered BAD_CRC without payload, counted in
EM_CRC_ERRORS, and has no other effect. -/
def Obligations.BadCrcHasNoEffect : Prop :=
  ∀ (c : Instr) (x : Xact) (s : State), xactOf c = some x → s.d.out = Outbox.none → s.d.portLive = true → x.crcOk = false →
    x.plen.toNat ≤ 252 →
    exec c s = .next (s.done { s.d with eu := { s.d.eu with
      reply := replyOf x s stBadCrc [], crcErrors := satInc s.d.eu.crcErrors } })

/-- Table 5.3: in SAVE every command but those accepted everywhere is answered DENIED_MODE without payload and has no other effect,
once its form is right. -/
def Obligations.SaveDeniesCommands : Prop :=
  ∀ (c : Instr) (x : Xact) (s t : State), xactOf c = some x → everywhere c = false → s.d.out = Outbox.none → s.d.portLive = true →
    (s.view x).ctl.mode = .save → exec c s = .next t → t.d.eu.reply = replyOf x s stBadLength [] ∨ t.d.eu.reply = replyOf x s stBadCrc [] ∨
      t = answered x s stDeniedMode []

/-- R134: with the lock set in the snapshot, RAIL_LOAD, HERD_CONFIG, KEY_INSTALL, BIND, ROOSTER_LOAD, SAVE_DISARM and IMAGE_DISCARD
that pass the checks before it are answered DENIED_LOCK without payload and have no other effect. -/
def Obligations.LockDeniesCommands : Prop :=
  ∀ (c : Instr) (x : Xact) (s t : State), xactOf c = some x → locked c = true → s.d.out = Outbox.none → s.d.portLive = true →
    (s.view x).eu.locked = true → exec c s = .next t →
      (∃ st, st ∈ [stBadLength, stBadCrc, stDeniedMode] ∧ t.d.eu.reply = replyOf x s st []) ∨ t = answered x s stDeniedLock []

/-! ### Reads and the management plane (chapters 4 to 6) -/

/-- R149, R150, R161, R169 to R171: NOP, IDENT, EPOCH_QUERY, IMAGE_INFO and KEY_STATUS complete: each replies OK with what the snapshot holds and changes nothing else.
Completes (exec answers the next state that each clause describes, under conditions on the state and the operands alone): nop, ident, epochQuery,
imageInfo, keyStatusSummary, keyStatusCert. -/
def Obligations.ReadsChangeNothing : Prop :=
  ∀ (s : State) (x : Xact),
    (Sent x 0 s → exec (.nop x) s = .next (answered x s stOk [(s.view x).eu.stateSeq]))
    ∧ (Sent x 0 s → exec (.ident x) s = .next (answered x s stOk (identPayload (s.view x))))
    ∧ (∀ e, Sent x 4 s → exec (.epochQuery x e) s = .next (answered x s stOk
        [(s.view x).reg.epoch, (s.view x).oldestLive, if (0 : Int) ≤ ((s.view x).oldestLive - e).toInt then 1 else 0]))
    ∧ (Sent x 0 s → exec (.imageInfo x) s = .next (answered x s stOk (s.view x).imageInfo))
    ∧ (Sent x 1 s → exec (.keyStatusSummary x) s = .next (answered x s stOk
        [(s.view x).keySummary, (s.view x).cip.imkGen, (s.view x).cip.escrowCheck, BitVec.ofNat 32 (s.view x).ident.cert.length]))
    ∧ (∀ k : Byte, Sent x 1 s → 16 ≤ k.toNat → k.toNat < 32 → exec (.keyStatusCert x k) s = .next (answered x s stOk
        (wordsOf (((s.view x).ident.cert.drop (256 * (k.toNat - 16))).take 256))))

/-- R120, R121, R123 and R152: a Ledger read completes with the snapshot's STATE_SEQ and words; its commit reduces the RC fields of the words by
what was returned and changes nothing else; from a snapshot that no happening has passed, EM_SYNC_ERRORS, EM_CRC_ERRORS and EM_ABANDONED are then 0.
Completes (exec answers the next state that each clause describes, under conditions on the state and the operands alone): ledgerRead, ledgerReadBlock. -/
def Obligations.LedgerReadsReduceCounters : Prop :=
  ∀ (s : State) (x : Xact),
    (∀ a : BitVec 16, Sent x 2 s → exec (.ledgerRead x a) s = .next (s.done
      (let e := s.d.rcClear a.toNat ((s.view x).ledger a.toNat)
       { e with eu := { e.eu with reply := replyOf x s stOk [(s.view x).eu.stateSeq, (s.view x).ledger a.toNat] } })))
    ∧ (∀ (a : BitVec 16) (n : Byte), Sent x 3 s → 1 ≤ n.toNat → n.toNat ≤ 64 → a.toNat + n.toNat ≤ 0x10000 →
      exec (.ledgerReadBlock x a n) s = .next (s.done
        (let ws := (List.range n.toNat).map (fun i => (s.view x).ledger (a.toNat + i))
         let e := s.d.rcClearAll a.toNat ws
         { e with eu := { e.eu with reply := replyOf x s stOk ((s.view x).eu.stateSeq :: ws) } })))
    ∧ (Sent x 2 s → x.snapBack = 0 → Runs (.ledgerRead x 0x108) s (fun e =>
        e.eu.syncErrors = 0 ∧ e.eu.crcErrors = 0 ∧ e.eu.abandoned = s.d.eu.abandoned))
    ∧ (Sent x 2 s → x.snapBack = 0 → Runs (.ledgerRead x 0x109) s (fun e => e.eu.abandoned = 0 ∧ e.eu.syncErrors = s.d.eu.syncErrors))

/-- R128, R129 and R131: EVENT_POP completes: it replies the oldest entries, and its commit removes exactly those and nothing else; when that frees
space after a loss, EVENT_OVERFLOW follows with EVENT_LOST, which becomes 0. Where the commit falls in the cycle of a happening, EVENT_OVERFLOW takes its
place among that cycle's events (R127).
Completes (exec answers the next state that each clause describes, under conditions on the state and the operands alone): eventPop. -/
def Obligations.EventPopTakesOldest : Prop :=
  ∀ (s : State) (x : Xact) (n : Byte), Sent x 1 s → n.toNat ≤ 32 → s.d.eu.queue.length ≤ 32 →
    (let k := min n.toNat (s.view x).eu.queue.length
     let r := replyOf x s stOk ([(s.view x).eu.stateSeq,
        BitVec.ofNat 32 (((s.view x).eu.queue.length - k) * 2 ^ 24 + (s.view x).eu.lost.toNat)]
        ++ ((s.view x).eu.queue.take k).flatMap (fun e => [e.code ++ e.param.extractLsb' 32 16, e.param.extractLsb' 0 32]))
     ((k = 0 ∨ s.d.eu.queue = [] ∨ s.d.eu.lost = 0) →
      exec (.eventPop x n) s = .next (s.done { s.d with eu := { s.d.eu with reply := r, queue := s.d.eu.queue.drop k } }))
     ∧ (0 < k → s.d.eu.queue ≠ [] → s.d.eu.lost ≠ 0 →
      (s.shared x = none → exec (.eventPop x n) s = .next (s.done { s.d with eu := { s.d.eu with
        reply := r, queue := s.d.eu.queue.drop k ++ [{ code := 0x160, param := s.d.eu.lost.setWidth 48 }], lost := 0, overflowSeen := true } }))
      ∧ Runs (.eventPop x n) s (fun e => e.eu.reply = r ∧ e.eu.lost = 0 ∧ e.eu.overflowSeen = true
          ∧ e.eu.queue.Perm (s.d.eu.queue.drop k ++ [{ code := 0x160, param := s.d.eu.lost.setWidth 48 }]) ∧ SameBut [.plane] s.d e)))

/-- R104 to R107, R109, R110, R148, R151, R164 and R172: a class Q command (ATTEST, DIAG_FETCH, SNAPSHOT_READ of either source) whose tag is free completes: with its
work done it replies the result; otherwise it replies BUSY and, with a slot free, a held-result slot takes its tag and work. Nothing else changes.
Completes (exec answers the next state that each clause describes, under conditions on the state and the operands alone): attest, diagFetch,
snapshotReadDie, snapshotReadFlash. -/
def Obligations.QueriesReplyOrHold : Prop :=
  ∀ (s : State) (x : Xact), inORH (s.view x) = true → holds (s.view x) x.tag = false →
    (∀ (c : Instr) (n : Nat) (w : QWork) (done : Option Nat), Sent x n s → Unstopped x s → (s.atReply x).eu.held.length < 8 → s.finished x done = none →
      ((∃ nonce, c = .attest x nonce done ∧ n = 48 ∧ w = .attest nonce (attestHead (s.view x)))
        ∨ (∃ (ch : Byte) (o : BitVec 16) (k : Byte), c = .diagFetch x ch 0 o k done ∧ n = 5 ∧ w = .diag ch.toNat o.toNat k.toNat ∧ ch.toNat < 4
            ∧ ((s.view x).chan ch.toNat).used = true ∧ ((s.view x).chan ch.toNat).captureValid = true ∧ 1 ≤ k.toNat ∧ k.toNat ≤ 128
            ∧ o.toNat + k.toNat ≤ 160)
        ∨ (∃ i : Byte, c = .snapshotReadDie x i done ∧ n = 2 ∧ w = .snapDie i.toNat ∧ i.toNat < 8)
        ∨ (∃ i : Byte, c = .snapshotReadFlash x i 1 done ∧ n = 2 ∧ w = .snapFlash i.toNat ∧ i.toNat < 8 ∧ (s.view x).img.usable = true)) →
      exec c s = .next (s.done { s.d with eu := { s.d.eu with
        reply := replyOf x s stBusy [], held := s.d.eu.held ++ [{ tag := x.tag, work := w, result := none }] } }))
    ∧ (∀ (c : Instr) (n : Nat) (ws : List Word) (done : Option Nat) (f : Dev), Sent x n s → s.finished x done = some f →
      ((∃ (ch : Byte) (o : BitVec 16) (k : Byte), c = .diagFetch x ch 0 o k done ∧ n = 5 ∧ ch.toNat < 4
            ∧ ws = (List.range k.toNat).map (fun i => (f.chan ch.toNat).capture.getD (o.toNat + i) 0)
            ∧ ((s.view x).chan ch.toNat).used = true ∧ ((s.view x).chan ch.toNat).captureValid = true ∧ 1 ≤ k.toNat ∧ k.toNat ≤ 128
            ∧ o.toNat + k.toNat ≤ 160)
        ∨ (∃ i : Byte, c = .snapshotReadDie x i done ∧ n = 2 ∧ ws = f.rail.snaps.getD i.toNat [] ∧ i.toNat < 8)
        ∨ (∃ i : Byte, c = .snapshotReadFlash x i 1 done ∧ n = 2 ∧ ws = mirrorWords f i.toNat ∧ i.toNat < 8 ∧ (s.view x).img.usable = true)) →
      exec c s = .next (answered x s stOk ws))
    ∧ (∀ (nonce : BitVec 384) (done : Option Nat) (f : Dev), Sent x 48 s → s.finished x done = some f → f.cip.trngFault = false →
      Runs (.attest x nonce done) s (fun e =>
        (∃ r, signedBy f nonce (attestHead (s.view x)) r ∧ e.eu.reply = replyOf x s r.1 r.2) ∧ e.eu.held = s.d.eu.held ∧ SameBut [] s.d e))

/-- R107, R108 and R147: the work of a held command finishes with its result and RESULT_READY; FETCH of a finished tag replies the result and frees the
slot; FETCH of an unfinished one replies BUSY and changes nothing.
Completes (exec answers the next state that each clause describes, under conditions on the state and the operands alone): fetch, resultReady. -/
def Obligations.HeldResultsAreFetched : Prop :=
  ∀ (s : State) (tag : BitVec 6) (h : Held),
    (heldSlot s.d tag = some h → Live s → h.result = none → Runs (.resultReady tag) s (fun e =>
      e.eu.held = s.d.eu.held.map (fun k => if k.tag = tag then { k with result := some (workResult s.d h.work) } else k)
      ∧ Queued 0x0162 (tag.toNat * 256 + (workResult s.d h.work).1.toNat) e ∧ SameBut [.plane] s.d e))
    ∧ (∀ (x : Xact) (b : Byte), heldSlot (s.atReply x) tag = some h → Sent x 1 s → b = tag.setWidth 8 <<< 2 →
      (∀ r, h.result = some r → exec (.fetch x b) s = .next (s.done { s.d with eu := { s.d.eu with
        reply := replyOf x s r.1 r.2, held := s.d.eu.held.filter (fun k => k.tag ≠ tag) } }))
      ∧ (h.result = none → exec (.fetch x b) s = .next (answered x s stBusy [])))

/-- R101, R112, R142 and R151 of Table 4.10: what the port does with a transaction that does not start with 0xA5, that is abandoned, or whose opcode
Table 5.3 does not assign: each is counted or answered and has no other effect.
Completes (exec answers the next state that each clause describes, under conditions on the state and the operands alone): badSync, transactionAbandon,
badOpcode. -/
def Obligations.PortFaultsAreCounted : Prop :=
  ∀ s : State, s.d.out = Outbox.none → s.d.portLive = true →
    exec .badSync s = .next (s.done { s.d with eu := { s.d.eu with reply := none, syncErrors := satInc s.d.eu.syncErrors } })
    ∧ (∀ b, exec (.transactionAbandon b) s = .next (s.done { s.d with eu := { s.d.eu with
        reply := none, abandoned := satInc s.d.eu.abandoned, crcErrors := if b then satInc s.d.eu.crcErrors else s.d.eu.crcErrors } }))
    ∧ (∀ x op, x.crcOk = true → x.plen.toNat ≤ 252 → exec (.badOpcode x op) s = .next (answered x s stBadOpcode []))

/-- R133: LOCK in OPERATE or RESTORE completes with OK and sets the lock, and nothing else, set already or not; in any other mode it is answered
DENIED_MODE and has no other effect.
Completes (exec answers the next state that each clause describes, under conditions on the state and the operands alone): lock. -/
def Obligations.LockSetsTheLock : Prop :=
  ∀ (s : State) (x : Xact), Sent x 0 s →
    (inOR (s.view x) = true →
      exec (.lock x) s = .next (s.done { s.d with eu := { s.d.eu with reply := replyOf x s stOk [], locked := true } }))
    ∧ (inOR (s.view x) = false → exec (.lock x) s = .next (answered x s stDeniedMode []))

/-! ### Ledger writes -/

/-- R120, R124, R182 and Table 6.3: LEDGER_WRITE and LEDGER_MODIFY of a scratch word complete with OK, locked or not: the word takes the value, or its masked
bits do; STATE_SEQ counts a change once; no other unit changes. LEDGER_WRITE of word 0x0119 clears the flags written 1, but for those that the data plane set in the
commit's cycle: these stay, with LEDGER_OVERRIDDEN.
Completes (exec answers the next state that each clause describes, under conditions on the state and the operands alone): ledgerWrite, ledgerModify. -/
def Obligations.ScratchWordsAreWritten : Prop :=
  ∀ (s : State) (x : Xact) (i : Fin 4) (mask v : Word), inWOR (s.view x) = true →
    (Sent x 6 s → Unraced x s (0xF0 + i) → Runs (.ledgerWrite x (BitVec.ofNat 16 (0xF0 + i)) v) s (fun e =>
      e.eu.reply = replyOf x s stOk [(s.view x).eu.stateSeq] ∧ e.eu.scratch = s.d.eu.scratch.set i v
      ∧ (v ≠ s.d.eu.scratch.getD i 0 → s.shared x = none → e.eu.stateSeq = s.d.eu.stateSeq + 1) ∧ SameBut [.plane] s.d e))
    ∧ (Sent x 10 s → Unraced x s (0xF0 + i) → Runs (.ledgerModify x (BitVec.ofNat 16 (0xF0 + i)) mask v) s (fun e =>
      e.eu.reply = replyOf x s stOk [(s.view x).eu.stateSeq, (s.view x).eu.scratch.getD i 0]
      ∧ e.eu.scratch = s.d.eu.scratch.set i ((s.d.eu.scratch.getD i 0 &&& ~~~mask) ||| (v &&& mask)) ∧ SameBut [.plane] s.d e))
    ∧ (Sent x 6 s → s.shared x = none → Runs (.ledgerWrite x 0x0119 v) s (fun e =>
      e.eu.domainFaultSeen = (s.d.eu.domainFaultSeen && !v.getLsbD 3) ∧ e.eu.overflowSeen = (s.d.eu.overflowSeen && !v.getLsbD 2)
      ∧ e.eu.refclkLostSeen = (s.d.eu.refclkLostSeen && !v.getLsbD 1) ∧ e.eu.hoscDriftSeen = (s.d.eu.hoscDriftSeen && !v.getLsbD 0)
      ∧ SameBut [.plane] s.d e))
    ∧ (∀ z, Sent x 6 s → s.shared x = some z → (∃ k ∈ s.d.eu.queue.drop z.eu.queue.length, k.code = 0x0E70) → v.getLsbD 3 = true →
      Runs (.ledgerWrite x 0x0119 v) s (fun e =>
        e.eu.domainFaultSeen = s.d.eu.domainFaultSeen ∧ Queued 0x0107 (0x119 * 256 + x.tag.toNat) e ∧ SameBut [.plane] s.d e))

/-- R50, R213, R504 and Tables 6.4, 6.5, 6.8 and 6.9: the three rows of ledger writes complete, in WAIT_RAILS, OPERATE or RESTORE with the lock clear and a value their word
takes. PORT_EN: the port takes the three fields; PORT_EN = 0 on a training or running port takes it to DISABLED with FAB_LINK_DOWN. ADMIT_MODE: mode and percentage are
taken. TASK_PERIOD: the trickle word, or a channel's retraining word, is taken, and a new period restarts its task.
Completes (exec answers the next state that each clause describes, under conditions on the state and the operands alone): portEnWrite, admitModeWrite,
taskPeriodWrite. -/
def Obligations.LedgerFieldsAreWritten : Prop :=
  ∀ (s : State) (x : Xact) (v : Word), Sent x 6 s → inWOR (s.view x) = true → (s.view x).eu.locked = false → RestoreStays s →
    (∀ p : Port, Unraced x s (0x201 + 0x100 * portCode p) → (v.extractLsb' 8 4).toNat ∈ [1, 2, 4, 8] → v.extractLsb' 0 2 ≠ 0 →
      Runs (.portEnWrite x p v) s (fun e =>
        e.eu.reply = replyOf x s stOk [(s.view x).eu.stateSeq]
        ∧ (e.port p).enabled = v.getLsbD 16 ∧ (e.port p).maxWidth = v.extractLsb' 8 4 ∧ (e.port p).maxRate = v.extractLsb' 0 2
        ∧ ((s.d.port p).enabled = true → v.getLsbD 16 = false → (s.d.port p).link ≠ .disabled →
            (e.port p).link = .disabled ∧ Queued 0x0201 (portCode p * 256 + 1) e)
        ∧ SameBut [.ports] s.d e))
    ∧ (Unraced x s 0x120 → 50 ≤ (v.extractLsb' 8 7).toNat → (v.extractLsb' 8 7).toNat ≤ 100 → (v.extractLsb' 0 2).toNat ≤ 2 →
      Runs (.admitModeWrite x v) s (fun e =>
        e.eu.reply = replyOf x s stOk [(s.view x).eu.stateSeq]
        ∧ e.adm.mode = v.extractLsb' 0 2 ∧ e.adm.pct = v.extractLsb' 8 7 ∧ SameBut [.admission] s.d e))
    ∧ (Unraced x s 0xC04 → v.extractLsb' 16 16 ≠ 0 → 1 ≤ (v.extractLsb' 8 6).toNat → (v.extractLsb' 8 6).toNat ≤ 50 →
      Runs (.taskPeriodWrite x 0x0C04 v) s (fun e =>
        e.eu.reply = replyOf x s stOk [(s.view x).eu.stateSeq]
        ∧ e.img.tricklePeriod = v.extractLsb' 16 16 ∧ e.img.trickleShare = v.extractLsb' 8 6 ∧ e.img.trickleEn = v.getLsbD 0
        ∧ (v.extractLsb' 16 16 ≠ s.d.img.tricklePeriod → (e.task 8).missed = 0) ∧ SameBut [.image, .tasks] s.d e))
    ∧ (∀ c : Fin 4, Unraced x s (0x802 + 256 * c) → (v.extractLsb' 8 8).toNat ≠ 0 →
      Runs (.taskPeriodWrite x (BitVec.ofNat 16 (0x802 + 256 * c)) v) s (fun e =>
        e.eu.reply = replyOf x s stOk [(s.view x).eu.stateSeq]
        ∧ e.mc = s.d.mc.modify c (fun m => { m with
          retrainPeriod := v.extractLsb' 8 8, tempTrigEn := v.getLsbD 1, retrainEn := v.getLsbD 0 })
        ∧ (v.extractLsb' 8 8 ≠ (s.d.chan c).retrainPeriod → (e.task (4 + c)).missed = 0) ∧ SameBut [.channels, .tasks] s.d e))

/-! ### The mode commands (chapter 2, Table 5.8) -/

/-- R27 to R29 and R154: MODE_REQUEST in OPERATE. With PATH = 1 and the path closed it opens the path at once (OPERATE rate, clock on REFCLK), or
begins the switch to REFCLK first; it is denied while R28 says so. With PATH = 0 it closes the path with cause 1. A request for the path as it stands
changes nothing.
Completes (exec answers the next state that each clause describes, under conditions on the state and the operands alone): modeRequestOpen,
modeRequestClose. -/
def Obligations.PathRequestsComplete : Prop :=
  ∀ (s : State) (x : Xact), Sent x 2 s → Both x s (fun d => inO d = true) → Steady x s →
    (s.d.ctl.hostPath = true → exec (.modeRequestOpen x 1) s = .next (answered x s stOk []))
    ∧ (s.d.ctl.hostPath = false → Both x s (fun d => openDenied d = false) → s.d.clk.src = false → s.d.clk.switching = false →
        s.d.ctl.retrainFailed = false → (∀ m ∈ s.d.mc, m.fullTrain = false ∧ m.onPoint1 = false) →
        Runs (.modeRequestOpen x 1) s (fun e => e.eu.reply = replyOf x s stPending []
          ∧ e.ctl = { s.d.ctl with hostPath := true, pathOpened := true, entry := none, entrySwitching := false }
          ∧ Queued 0x0103 0 e ∧ SameBut [.mode] s.d e))
    ∧ (s.d.ctl.hostPath = false → Both x s (fun d => openDenied d = false) → s.d.clk.src = true → s.d.clk.switching = false →
        Runs (.modeRequestOpen x 1) s (fun e => e.eu.reply = replyOf x s stPending []
          ∧ e.ctl = { s.d.ctl with entry := some (.modeRequest x.tag), entrySwitching := true }
          ∧ e.clk = { s.d.clk with switching := true, target := false } ∧ SameBut [.mode, .clock, .channels, .tasks] s.d e))
    ∧ (s.d.ctl.hostPath = false → openDenied (s.view x) = true →
        exec (.modeRequestOpen x 1) s = .next (answered x s stDeniedState [(s.view x).eu.stateSeq]))
    ∧ (s.d.ctl.hostPath = true → Runs (.modeRequestClose x 1 0) s (fun e => e.eu.reply = replyOf x s stOk []
          ∧ e.ctl = { s.d.ctl with hostPath := false, pathCause := 1 } ∧ Queued 0x0104 1 e ∧ SameBut [.mode] s.d e))
    ∧ (s.d.ctl.hostPath = false → exec (.modeRequestClose x 1 0) s = .next (answered x s stOk []))

/-- R155, R532 to R534 and R660: SAVE_ARM arms SAVE where SAVE can be armed, and says why not where it cannot; SAVE_DISARM disarms it while the
lock is clear. Neither changes anything else.
Completes (exec answers the next state that each clause describes, under conditions on the state and the operands alone): saveArm, saveDisarm. -/
def Obligations.SaveIsArmedAndDisarmed : Prop :=
  ∀ (s : State) (x : Xact), Sent x 0 s → Both x s (fun d => inOR d = true) → Steady x s → RestoreStays s →
    (s.d.ctl.saveArmed = false → Both x s (fun d => d.img.usable = true ∧ d.unable = false ∧ d.cip.bound = true) →
        Runs (.saveArm x) s (fun e => e.eu.reply = replyOf x s stOk []
          ∧ e.ctl = { s.d.ctl with saveArmed := true } ∧ SameBut [.mode] s.d e))
    ∧ (s.d.ctl.saveArmed = false → (s.view x).img.usable = false → exec (.saveArm x) s = .next (answered x s stFaultMedia []))
    ∧ (s.d.ctl.saveArmed = false → (s.view x).img.usable = true → (s.view x).unable = true →
        exec (.saveArm x) s = .next (answered x s stFaultEnergy []))
    ∧ (s.d.ctl.saveArmed = false → (s.view x).img.usable = true → (s.view x).unable = false → (s.view x).cip.bound = false →
        exec (.saveArm x) s = .next (answered x s stDeniedState [(s.view x).eu.stateSeq]))
    ∧ (s.d.ctl.saveArmed = true → (s.view x).eu.locked = false → Runs (.saveDisarm x) s (fun e => e.eu.reply = replyOf x s stOk []
          ∧ e.ctl = { s.d.ctl with saveArmed := false } ∧ SameBut [.mode] s.d e))

/-- R156, R518 and R538: SAVE_NOW with SAVE armed replies PENDING and enters SAVE in its commit cycle: the path closes with cause 2, LAST_TRIGGER is 5, SAVE_ENTERED and
SAVE_PHASE 0 are queued, the save set's classes are those in force. In an ARMED herd it is a cut cause first, and the trigger recorded is 4. With SAVE not armed it is
answered DENIED_STATE.
Completes (exec answers the next state that each clause describes, under conditions on the state and the operands alone): saveNow. -/
def Obligations.SaveNowEntersSave : Prop :=
  ∀ (s : State) (x : Xact), Sent x 0 s → inOR (s.view x) = true →
    (Both x s (fun d => inOR d = true ∧ d.ctl.saveArmed = true) → Steady x s →
      (s.d.herdArmed = false → Runs (.saveNow x) s (fun e => e.eu.reply = replyOf x s stPending []
        ∧ e.ctl = { s.d.ctl with mode := .save, lastTrigger := 5, hostPath := false, pathCause := 2, entry := none, entrySwitching := false }
        ∧ e.sav.from_ = s.d.ctl.mode ∧ e.sav.classes = s.d.attrs ∧ e.sav.committed = false ∧ e.sav.abandoned = false
        ∧ Queued 0x0110 (0x500 + s.d.ctl.mode.code) e ∧ Queued 0x0114 0 e
        ∧ SameBut [.plane, .mode, .engines, .channels, .image, .rails, .energy, .saving, .restoring, .rooster, .tasks] s.d e))
      ∧ (s.d.herdArmed = true → Runs (.saveNow x) s (fun e => e.eu.reply = replyOf x s stPending []
        ∧ e.ctl = { s.d.ctl with mode := .save, lastTrigger := 4, hostPath := false, pathCause := 2, entry := none, entrySwitching := false }
        ∧ e.herd.st = 8 ∧ e.herd.steps = s.d.herd.steps + 1 ∧ Queued 0x0F03 0x105 e ∧ Queued 0x0110 (0x400 + s.d.ctl.mode.code) e
        ∧ SameBut [.plane, .mode, .engines, .channels, .image, .rails, .energy, .saving, .restoring, .herd, .rooster, .tasks] s.d e)))
    ∧ ((s.view x).ctl.saveArmed = false → exec (.saveNow x) s = .next (answered x s stDeniedState [(s.view x).eu.stateSeq]))

/-- R157 and R566 to R568: RESTORE_BEGIN enters RESTORE with the path closed for cause 5, and every granule the working map holds in flash is to be
restored; RESTORE_ADMIT opens the path in it (R155, R572).
Completes (exec answers the next state that each clause describes, under conditions on the state and the operands alone): restoreBegin, restoreAdmit. -/
def Obligations.RestoreBeginsAndAdmits : Prop :=
  ∀ (s : State) (x : Xact),
    (∀ param : Byte, Sent x 1 s → (param = 0 ∨ param = 1) → Both x s (fun d => inO d = true ∧ restoreDenied d = none) → Steady x s →
      (∃ p ∈ s.d.img.gmap, p.2.st = 1) → Runs (.restoreBegin x param) s (fun e => e.eu.reply = replyOf x s stPending []
        ∧ e.ctl = { s.d.ctl with mode := .restore, hostPath := false, pathCause := 5 }
        ∧ e.cip.verifyFirst = param.getLsbD 0 ∧ e.rst.admitted = false ∧ e.rst.classes = s.d.attrs
        ∧ e.rst.unrestored = (s.d.img.gmap.filter (fun p => p.2.st = 1)).map (·.1) ∧ e.rst.total = e.rst.unrestored.length
        ∧ Queued 0x0120 0 e ∧ SameBut [.mode, .cipher, .image, .restoring] s.d e))
    ∧ (Sent x 0 s → Both x s (fun d => inR d = true ∧ d.rst.admitted = false ∧ d.clk.src = false) → Steady x s → RestoreStays s →
      Runs (.restoreAdmit x) s (fun e => e.eu.reply = replyOf x s stOk []
        ∧ e.ctl = { s.d.ctl with hostPath := true, pathOpened := true } ∧ e.rst.admitted = true
        ∧ e.rst.unrestored = s.d.rst.unrestored ∧ Queued 0x0103 0 e ∧ SameBut [.mode, .restoring] s.d e))

/-- R584, R588, R591 and R592: SAFEHOLD_ENTER latches cause 0 and enters SAFEHOLD with the mode it came from as the return mode; SAFEHOLD_RELEASE
returns to it, keeping causes 1 to 3, with the path closed.
Completes (exec answers the next state that each clause describes, under conditions on the state and the operands alone): safeholdEnter,
safeholdRelease. -/
def Obligations.SafeholdIsEnteredAndReleased : Prop :=
  ∀ (s : State) (x : Xact), Sent x 0 s → Steady x s →
    (Both x s (fun d => inOR d = true) → Runs (.safeholdEnter x) s (fun e => e.eu.reply = replyOf x s stOk []
      ∧ e.ctl = { s.d.ctl with mode := .safehold, returnMode := s.d.ctl.mode, safeholdCauses := s.d.ctl.safeholdCauses ||| 1
                               hostPath := false, pathCause := 4, entry := none, entrySwitching := false }
      ∧ Queued 0x0130 0 e ∧ (s.d.ctl.hostPath = true → Queued 0x0104 4 e)
      ∧ SameBut [.mode, .engines, .channels, .image, .restoring, .tasks] s.d e))
    ∧ (Both x s (fun d => inH d = true) → (∀ k, s.d.img.commit = some k → k.phase ≠ 4) → (s.d.ctl.returnMode = .operate ∨ s.d.ctl.returnMode = .restore ∧ s.d.rst.unrestored ≠ []) →
      Runs (.safeholdRelease x) s (fun e => e.eu.reply = replyOf x s stOk []
        ∧ e.ctl.mode = s.d.ctl.returnMode ∧ e.ctl.safeholdCauses = s.d.ctl.safeholdCauses &&& 0x0E ∧ e.ctl.hostPath = false
        ∧ e.ctl.pathCause = (if s.d.ctl.returnMode = .restore then 5 else 4)
        ∧ Queued 0x0131 s.d.ctl.returnMode.code e ∧ SameBut [.mode, .clock, .engines, .channels, .restoring, .tasks] s.d e))

/-! ### Regions, epochs and copy engines (chapter 8) -/

/-- R158 to R161, R261 to R263 and R442: REGION_STAGE stages the attributes it carries, and is refused with a base above its limit. REGION_COMMIT commits
every staged region under the next epoch; with a staged domain that has no key it is void, and with 7 epochs live it is denied.
Completes (exec answers the next state that each clause describes, under conditions on the state and the operands alone): regionStage, regionCommit. -/
def Obligations.RegionsAreStagedAndCommitted : Prop :=
  ∀ (s : State) (x : Xact), inOR (s.view x) = true →
    (∀ (n : Fin 64) (en : Bool) (base limit : BitVec 24) (rights attr : Byte), Sent x 10 s → rights.toNat < 64 → attr.getLsbD 0 = false →
      attr.extractLsb' 6 2 ≠ 3 → attr.extractLsb' 1 2 ≠ 3 →
      (base.toNat ≤ limit.toNat → exec (.regionStage x (BitVec.ofNat 8 n) (if en then 1 else 0) base limit rights attr) s =
        .next (s.done { s.d with
          eu := { s.d.eu with reply := replyOf x s stOk [] }
          reg := { s.d.reg with regions := s.d.reg.regions.modify n (fun r => { r with
            staged := some { enable := en, rights := rights, saveClass := attr.extractLsb' 6 2, domain := attr.extractLsb' 3 3
                             hint := attr.extractLsb' 1 2, base := base, limit := limit } }) } }))
      ∧ (limit.toNat < base.toNat →
        exec (.regionStage x (BitVec.ofNat 8 n) (if en then 1 else 0) base limit rights attr) s = .next (answered x s stBadParam [])))
    ∧ (Sent x 0 s → Both x s (fun d => inOR d = true ∧ d.anyStaged = true) →
        ((s.view x).reg.epoch - (s.view x).oldestLive).toNat < 7 →
      (s.d.keylessStaging = false → Runs (.regionCommit x) s (fun e =>
        e.eu.reply = replyOf x s stPending [(s.view x).reg.epoch + 1]
        ∧ e.reg = { s.d.reg with
            epoch := s.d.reg.epoch + 1, reported := e.reg.reported
            regions := s.d.reg.regions.map (fun r => match r.staged with
              | some a => { r with cur := a, commitEpoch := s.d.reg.epoch + 1, staged := none }
              | none => r) }
        ∧ e.cip.keyed = s.d.cip.keyed ||| domainsOf e.attrs ∧ SameBut [.regions, .cipher] s.d e))
      ∧ (s.d.keylessStaging = true → Runs (.regionCommit x) s (fun e =>
        e.eu.reply = replyOf x s stPending [(s.view x).reg.epoch + 1]
        ∧ Queued 0x0402 ((s.view x).reg.epoch + 1).toNat e ∧ SameBut [] s.d e)))
    ∧ (Sent x 0 s → 7 ≤ ((s.view x).reg.epoch - (s.view x).oldestLive).toNat →
        exec (.regionCommit x) s = .next (answered x s stDeniedState [(s.view x).eu.stateSeq]))
    ∧ (Sent x 0 s → ((s.view x).reg.epoch - (s.view x).oldestLive).toNat < 7 → (s.view x).anyStaged = false →
        exec (.regionCommit x) s = .next (answered x s stOk [(s.view x).reg.epoch]))

/-- R162, R163, R271, R273, R274, R285 and R286: COPY_SUBMIT runs or queues a valid descriptor under the engine's next DESC_ID. COPY_CANCEL ends
the running descriptor at the end of its chunk, or at once with none in progress, and takes queued ones out. COPY_RESUME runs a stopped engine.
Completes (exec answers the next state that each clause describes, under conditions on the state and the operands alone): copySubmit, copyCancel,
copyResume. -/
def Obligations.CopyEngineCommands : Prop :=
  ∀ (s : State) (x : Xact) (n : Fin 4),
    (∀ b : BitVec 256, Sent x 36 s → Both x s (fun d => inO d = true ∧ submitDenied n d = false) →
      ({ id := 0, bits := b } : Desc).valid (s.view x).visible = true →
      Runs (.copySubmit x (BitVec.ofNat 8 n) 0 b) s (fun e =>
        e.eu.reply = replyOf x s stPending [((s.view x).engine n).nextId.setWidth 32]
        ∧ e.ce = s.d.ce.modify n (fun c =>
            let k : Desc := { id := ((s.view x).engine n).nextId, bits := b }
            let a := { c with
              nextId := nextDescId c.nextId, checkpoint := c.checkpoint.map (fun (r : Checkpoint) => { r with nextId := nextDescId r.nextId }) }
            if c.run = none then { a with st := .running, cause := 0, run := some k, runChunk := 0 } else { a with queue := c.queue ++ [k] })
        ∧ SameBut [.engines] s.d e))
    ∧ (∀ id : BitVec 16, Sent x 4 s → inOR (s.view x) = true → RestoreStays s →
      (Both x s (fun d => inOR d = true ∧ cancelsRun (d.engine n) id = true) → (s.d.engine n).st ≠ .cancelling →
        ((s.d.engine n).job ≠ none → Runs (.copyCancel x (BitVec.ofNat 8 n) 0 id) s (fun e => e.eu.reply = replyOf x s stPending []
          ∧ e.ce = s.d.ce.modify n (fun c => { c with
              st := .cancelling, cancelId := id, queue := c.queue.filter (fun q => !(id = 0xFFFF || q.id = id)) })
          ∧ SameBut [.engines] s.d e))
        ∧ ((s.d.engine n).job = none → Runs (.copyCancel x (BitVec.ofNat 8 n) 0 id) s (fun e => e.eu.reply = replyOf x s stPending []
          ∧ Queued 0x0413 (n * 65536 + id.toNat) e
          ∧ e.ce = s.d.ce.modify n (fun c => match c.queue.filter (fun q => !(id = 0xFFFF || q.id = id)) with
              | [] => { c with st := .idle, run := none, runChunk := 0, queue := [] }
              | q :: t => { c with st := .running, cause := 0, run := some q, runChunk := 0, queue := t })
          ∧ ((e.engine n).run = none → Queued 0x0411 (n * 65536 + (s.d.engine n).lastDone.toNat) e)
          ∧ SameBut [.engines] s.d e)))
      ∧ (Both x s (fun d => inOR d = true ∧ cancelsRun (d.engine n) id = false ∧ cancelsQueued (d.engine n) id = true) →
        Runs (.copyCancel x (BitVec.ofNat 8 n) 0 id) s (fun e => e.eu.reply = replyOf x s stOk []
          ∧ e.ce = s.d.ce.modify n (fun c => { c with queue := c.queue.filter (fun q => !(id = 0xFFFF || q.id = id)) })
          ∧ Queued 0x0413 (n * 65536 + id.toNat) e ∧ SameBut [.engines] s.d e))
      ∧ (cancelsRun ((s.view x).engine n) id = false → cancelsQueued ((s.view x).engine n) id = false →
        exec (.copyCancel x (BitVec.ofNat 8 n) 0 id) s = .next
          (if id = 0xFFFF then answered x s stOk [] else answered x s stDeniedState [(s.view x).eu.stateSeq])))
    ∧ (Sent x 1 s → Both x s (fun d => inO d = true ∧ resumable (d.engine n) = true) →
      Runs (.copyResume x (BitVec.ofNat 8 n)) s (fun e => e.eu.reply = replyOf x s stPending []
        ∧ e.ce = s.d.ce.modify n (fun c => { c with st := .running, cause := 0 })
        ∧ Queued 0x0416 (n * 65536 + (s.d.engine n).runId.toNat) e ∧ SameBut [.engines] s.d e))
    ∧ (Sent x 1 s → inO (s.view x) = true → resumable ((s.view x).engine n) = false →
      exec (.copyResume x (BitVec.ofNat 8 n)) s = .next (answered x s stDeniedState [(s.view x).eu.stateSeq]))

/-- R265, R276 to R284: a RUNNING engine in OPERATE starts its next chunk under the attributes and epoch in force; a chunk that would write where
the owning port has no right stops the engine before any burst, with REGION_FAULT.
Completes (exec answers the next state that each clause describes, under conditions on the state and the operands alone): copyChunkStart. -/
def Obligations.ChunksStart : Prop :=
  ∀ (s : State) (n : Fin 4) (k : Desc), Live s → s.d.ctl.mode = .operate → (s.d.engine n).run = some k → (s.d.engine n).job = none →
    (s.d.engine n).st = .running → (s.d.engine n).preempt = none → (s.d.adm.holding && s.d.adm.mode = 1) = false →
    (∀ m ∈ s.d.mc, m.fullTrain = false) →
    (let c := s.d.engine n
     let rd := k.readBursts c.runChunk.toNat
     let wr := k.writeBursts c.runChunk.toNat
     ((∀ m ∈ s.d.mc, m.frozen = false ∧ m.offline = false) → (∀ b ∈ wr, rightsIn s.d.attrs (b / 1024) (chunkRight n true) = true) →
        (∀ b ∈ rd, rightsIn s.d.attrs (b / 1024) (chunkRight n false) = true ∧ s.d.poisoned (b / 1024) = false) →
      Runs (.copyChunkStart n) s (fun e =>
        e.ce = s.d.ce.modify n (fun c => { c with
          job := some { reads := rd, writes := wr, queued := 0, buffer := [], stopped := false, tainted := false }
          jobEpoch := s.d.reg.epoch, jobAttrs := s.d.attrs })
        ∧ SameBut [.engines] s.d e))
     ∧ (∀ b ∈ wr, rightsIn s.d.attrs (b / 1024) (chunkRight n true) = false →
        (∀ a ∈ wr, rightsIn s.d.attrs (a / 1024) (chunkRight n true) = false → b ≤ a) →
      Runs (.copyChunkStart n) s (fun e =>
        e.ce = s.d.ce.modify n (fun c => { c with st := .stopped, cause := 1, stopChunk := c.runChunk, job := none })
        ∧ e.reg.faultAddr = BitVec.ofNat 40 (b * 64) ∧ e.reg.faultOrigin = 2 ∧ e.reg.faultId = BitVec.ofNat 4 n
        ∧ Queued 0x0412 (n * 2 ^ 24 + c.runId.toNat * 256 + 1) e ∧ Queued 0x0400 ((32 + n) * 2 ^ 40 + b * 64 % 2 ^ 40) e
        ∧ SameBut [.engines, .regions] s.d e)))

/-- R277, R281, R283 and R284: a chunk whose bursts are all done ends: the next chunk is due; after the last one the descriptor is done and the engine takes the
next or goes IDLE; a stopped burst or an internal fault stops the engine at the chunk.
Completes (exec answers the next state that each clause describes, under conditions on the state and the operands alone): copyChunkDone. -/
def Obligations.ChunksEnd : Prop :=
  ∀ (s : State) (n : Fin 4) (k : Desc) (j : Job), Live s → RestoreStays s → (s.d.engine n).run = some k → (s.d.engine n).job = some j →
    (s.d.engine n).st = .running → (s.d.engine n).preempt = none →
    (let c := s.d.engine n
     (j.queued = 0 → j.stopped = false → j.reads = [] → j.writes = [] →
       (c.runChunk.toNat + 1 < k.chunks → Runs (.copyChunkDone n false) s (fun e =>
          e.ce = s.d.ce.modify n (fun c => { c with job := none, chunksDone := c.chunksDone + 1, runChunk := c.runChunk + 1 })
          ∧ SameBut [.engines] s.d e))
       ∧ (k.chunks ≤ c.runChunk.toNat + 1 → Runs (.copyChunkDone n false) s (fun e =>
          e.ce = s.d.ce.modify n (fun c => match c.queue with
            | [] => { c with job := none, chunksDone := c.chunksDone + 1, runChunk := 0, st := .idle, run := none
                             descDone := c.descDone + 1, lastDone := k.id }
            | q :: t => { c with job := none, chunksDone := c.chunksDone + 1, runChunk := 0, st := .running, cause := 0, run := some q
                                 queue := t, descDone := c.descDone + 1, lastDone := k.id })
          ∧ (k.notify = true → Queued 0x0410 (n * 65536 + k.id.toNat) e)
          ∧ (c.queue = [] → Queued 0x0411 (n * 65536 + k.id.toNat) e) ∧ SameBut [.engines] s.d e)))
     ∧ (∀ f : Bool, (f = true ∨ j.stopped = true ∧ j.queued = 0) → Runs (.copyChunkDone n f) s (fun e =>
          e.ce = s.d.ce.modify n (fun c => { c with
            st := .stopped, cause := if f then 6 else 2, stopChunk := c.runChunk, job := none })
          ∧ Queued 0x0412 (n * 2 ^ 24 + c.runId.toNat * 256 + (if f then 6 else 2)) e ∧ SameBut [.engines, .channels] s.d e)))

/-! ### Host commands of the channels, the image and the keys (Tables 5.10 and 5.11) -/

/-- R164, R165, R357 to R359, R381 and R382: CHANNEL_THAW thaws a frozen channel where R382 lets it; TRAIN_NOW KIND 0 starts a pass at once, after the one in
progress, or fails on an offline channel; KIND 1 starts full training while the path is closed.
Completes (exec answers the next state that each clause describes, under conditions on the state and the operands alone): channelThaw, trainNowPass,
trainNowFull. -/
def Obligations.ChannelCommands : Prop :=
  ∀ (s : State) (x : Xact) (c : Fin 4), ((s.view x).chan c).used = true →
    (Sent x 1 s → inOR (s.view x) = true →
      (Both x s (fun d => inOR d = true ∧ thawDenied c d = false) → RestoreStays s →
        Runs (.channelThaw x (BitVec.ofNat 8 c)) s (fun e => e.eu.reply = replyOf x s stOk []
          ∧ e.mc = s.d.mc.modify c (fun m => { m with frozen := false }) ∧ Queued 0x0815 c e ∧ SameBut [.channels] s.d e))
      ∧ (thawDenied c (s.view x) = true →
        exec (.channelThaw x (BitVec.ofNat 8 c)) s = .next (answered x s stDeniedState [(s.view x).eu.stateSeq])))
    ∧ (Sent x 2 s → Both x s (fun d => inO d = true) → (s.d.chan c).fullTrain = false →
      ((s.d.chan c).offline = false → (s.d.chan c).pass = none → Runs (.trainNowPass x (BitVec.ofNat 8 c)) s (fun e =>
        e.eu.reply = replyOf x s stPending []
        ∧ e.mc = s.d.mc.modify c (fun m => { m with
            pass := some { lane := 0, inPause := false, cause := 2, low := false, lost := false } })
        ∧ SameBut [.channels] s.d e))
      ∧ ((s.d.chan c).offline = false → (s.d.chan c).pass ≠ none → Runs (.trainNowPass x (BitVec.ofNat 8 c)) s (fun e =>
        e.eu.reply = replyOf x s stPending [] ∧ e.mc = s.d.mc.modify c (fun m => { m with passAsked := true }) ∧ SameBut [.channels] s.d e))
      ∧ ((s.d.chan c).offline = true → Runs (.trainNowPass x (BitVec.ofNat 8 c)) s (fun e =>
        e.eu.reply = replyOf x s stPending [] ∧ Queued 0x0810 (c * 65536 + 2) e ∧ SameBut [] s.d e)))
    ∧ (Sent x 2 s → Both x s (fun d => inO d = true ∧ d.ctl.hostPath = false) →
      Runs (.trainNowFull x (BitVec.ofNat 8 c) 1) s (fun e => e.eu.reply = replyOf x s stPending []
        ∧ e.mc = s.d.mc.modify c (fun m => { m with fullTrain := true }) ∧ SameBut [.channels] s.d e))
    ∧ (Sent x 2 s → inO (s.view x) = true → (s.view x).ctl.hostPath = true →
      exec (.trainNowFull x (BitVec.ofNat 8 c) 1) s = .next (answered x s stDeniedState [(s.view x).eu.stateSeq]))

/-- R166, R425, R426, R434, R453 and R460: IMAGE_DISCARD draws a new image key, empties the working map and the poison list and asks for the
empty-image commit; CHECKPOINT_FLUSH lists every granule dirty at its dispatch. Flash that is unusable is FAULT_MEDIA for both.
Completes (exec answers the next state that each clause describes, under conditions on the state and the operands alone): imageDiscard,
checkpointFlush. -/
def Obligations.ImageCommands : Prop :=
  ∀ (s : State) (x : Xact),
    (∀ gen : Word, Sent x 4 s → Both x s (fun d => inO d = true ∧ discardDenied gen d = none) → (s.view x).eu.locked = false →
      Runs (.imageDiscard x gen) s (fun e => e.eu.reply = replyOf x s stOk []
        ∧ (∃ b, CommitBecomes x s b e ∧ b.img.gmap = [] ∧ b.cip.poison = []
            ∧ (3 ∈ b.img.commitAsked ∨ ∃ k, b.img.commit = some k ∧ k.cause = 3))
        ∧ e.cip.bound = true ∧ e.cip.imk = imkOf (s.d.free + 1) ∧ e.cip.imkOld = e.cip.imk
        ∧ e.cip.imkGen = (if s.d.cip.headerGen < s.d.cip.imkGen then s.d.cip.imkGen else s.d.cip.headerGen) + 1
        ∧ e.cip.oldGen = e.cip.imkGen ∧ e.cip.imageBoundary = 0 ∧ e.cip.rekeyActive = s.d.cip.rekeyActive &&& 0xFE
        ∧ e.cip.escrow = s.d.cip.escrow ∧ e.cip.domKey = s.d.cip.domKey ∧ SameBut [.image, .cipher] s.d e))
    ∧ (Sent x 0 s → Both x s (fun d => inO d = true ∧ flushDenied d = none) → Runs (.checkpointFlush x) s (fun e =>
        e.eu.reply = replyOf x s stPending []
        ∧ CommitBecomes x s { s.d with
          eu := { s.d.eu with reply := replyOf x s stPending [] }
          img := { s.d.img with flush := some s.d.dirtyList } } e
        ∧ SameBut [] s.d e))
    ∧ (∀ gen : Word, Sent x 4 s → inO (s.view x) = true → (s.view x).eu.locked = false → (s.view x).img.usable = false →
        exec (.imageDiscard x gen) s = .next (answered x s stFaultMedia []))
    ∧ (Sent x 0 s → inO (s.view x) = true → (s.view x).img.usable = false →
        exec (.checkpointFlush x) s = .next (answered x s stFaultMedia []))

/-- R166 to R168, R443, R445, R447 and R450: KEY_INSTALL installs the escrow key its CHECK agrees with; KEY_ROTATE puts its target last in Goat's order, a new
image key being drawn for target 0; BIND starts its work.
Completes (exec answers the next state that each clause describes, under conditions on the state and the operands alone): keyInstall, keyRotateImage,
keyRotateDomain, bind. -/
def Obligations.KeyCommands : Prop :=
  ∀ (s : State) (x : Xact),
    (∀ (key : BitVec 256) (check : Word), Sent x 36 s → key ≠ 0 → (s.view x).eu.locked = false →
      (Both x s (fun d => inO d = true) → check = checkValue key → Runs (.keyInstall x key check) s (fun e =>
        e.eu.reply = replyOf x s stOk []
        ∧ e.cip = { s.d.cip with escrow := some key, escrowCheck := check, goat := e.cip.goat, poison := e.cip.poison }
        ∧ Queued 0x0D00 check.toNat e ∧ SameBut [.cipher] s.d e))
      ∧ (inO (s.view x) = true → check ≠ checkValue key →
        exec (.keyInstall x key check) s = .next (answered x s stDeniedAuth [])))
    ∧ (∀ t : Fin 8, t ≠ 0 → Sent x 1 s → Both x s (fun d => inO d = true ∧ rotateDenied t d = none) →
      Runs (.keyRotateDomain x (BitVec.ofNat 8 t)) s (fun e => e.eu.reply = replyOf x s stPending []
        ∧ e.cip = { s.d.cip with
            rekeyActive := s.d.cip.rekeyActive ||| BitVec.ofNat 8 (2 ^ t.val), goatQueue := s.d.cip.goatQueue ++ [t.val]
            goat := e.cip.goat, poison := e.cip.poison }
        ∧ Queued 0x0D02 (t * 2 ^ 32) e ∧ SameBut [.cipher] s.d e))
    ∧ (Sent x 1 s → Both x s (fun d => inO d = true ∧ rotateDenied 0 d = none) →
      Runs (.keyRotateImage x) s (fun e => e.eu.reply = replyOf x s stPending []
        ∧ e.cip = { s.d.cip with
            imk := imkOf (s.d.free + 1), imkOld := s.d.cip.imk, bound := true, oldGen := s.d.cip.imkGen
            imkGen := (if s.d.cip.headerGen < s.d.cip.imkGen then s.d.cip.imkGen else s.d.cip.headerGen) + 1
            imageBoundary := 0, rekeyActive := s.d.cip.rekeyActive ||| 1, goatQueue := s.d.cip.goatQueue ++ [0]
            goat := e.cip.goat, poison := e.cip.poison }
        ∧ Queued 0x0D02 e.cip.imkGen.toNat e ∧ SameBut [.cipher] s.d e))
    ∧ (∀ (gen : Word) (key : BitVec 256) (check : Word), Sent x 40 s → (s.view x).eu.locked = false →
      Both x s (fun d => inO d = true ∧ bindDenied gen key check d = none) → Runs (.bind x gen key check) s (fun e =>
        e.eu.reply = replyOf x s stPending []
        ∧ e.cip = { s.d.cip with binding := s.d.cip.binding ++ [(x.tag, key)], goat := e.cip.goat, poison := e.cip.poison }
        ∧ SameBut [.cipher] s.d e))

/-! ### Host commands of the rails, the energy store, the herd and Rooster (Table 5.14) -/

/-- R173, R468, R473, R474, R476 and R477: RAIL_LOAD in WAIT_RAILS writes the words it carries: the header, a slot entry, a dependency entry, or program steps.
Completes (exec answers the next state that each clause describes, under conditions on the state and the operands alone): railLoad. -/
def Obligations.RailLoadsAreWritten : Prop :=
  ∀ (s : State) (x : Xact), Both x s (fun d => inW d = true) → (s.view x).eu.locked = false → x.plen.toNat ≤ 252 →
    (∀ (i : Nat) (ws : List Word), ws ≠ [] → i + ws.length ≤ 64 → (∀ w ∈ ws, stepBad w = false) → Sent x (3 + 4 * ws.length) s →
      Runs (.railLoad x 3 (BitVec.ofNat 8 i) (BitVec.ofNat 8 ws.length) (ws.flatMap wordBytes)) s (fun e =>
        e.eu.reply = replyOf x s stOk []
        ∧ e.rail = { s.d.rail with program := ws.zipIdx.foldl (fun p q => p.set (i + q.2) q.1) s.d.rail.program }
        ∧ SameBut [.rails] s.d e))
    ∧ (∀ h : Word, headerBad h = false → Sent x 7 s → Runs (.railLoad x 0 0 1 (wordBytes h)) s (fun e =>
        e.eu.reply = replyOf x s stOk []
        ∧ e.rail = { s.d.rail with header := h, st := if s.d.rail.st = .empty ∨ s.d.rail.st = .loaded then
            (if h.extractLsb' 24 8 = 0 then .empty else .loaded) else s.d.rail.st }
        ∧ SameBut [.rails] s.d e))
    ∧ (∀ (n : Fin 16) (hi lo : Word), slotEntryBad (hi ++ lo) = false → Sent x 11 s →
      Runs (.railLoad x 1 (BitVec.ofNat 8 n) 1 (wordBytes hi ++ wordBytes lo)) s (fun e => e.eu.reply = replyOf x s stOk []
        ∧ e.rail = { s.d.rail with slots := s.d.rail.slots.modify n (fun k => { k with
            entry := hi ++ lo
            st := if k.st = .unused ∨ k.st = .off then (if hi.getLsbD 31 then .off else .unused) else k.st }) }
        ∧ SameBut [.rails] s.d e))
    ∧ (∀ (n : Fin 16) (hi : Word), Sent x 11 s → Runs (.railLoad x 2 (BitVec.ofNat 8 n) 1 (wordBytes hi ++ wordBytes 0)) s (fun e =>
        e.eu.reply = replyOf x s stOk [] ∧ e.rail = { s.d.rail with deps := s.d.rail.deps.set n (hi ++ (0 : Word)) }
        ∧ SameBut [.rails] s.d e))

/-- R172, R475 to R478: RAIL_RUN starts attempt 0 in RAILS with no slot EXCLUDED. A program that starts with a WAIT_TIME waits there; a dependency
table enables every rail that needs nothing.
Completes (exec answers the next state that each clause describes, under conditions on the state and the operands alone): railRun. -/
def Obligations.RailRunStartsAttempt : Prop :=
  ∀ (s : State) (x : Xact), Sent x 1 s → Both x s (fun d => inWHd d = true ∧ runDenied d = false) → s.d.startupHeld = false →
    (s.d.rail.kind = 2 → (s.d.rail.program.getD 0 0).extractLsb' 28 4 = 3 → (s.d.rail.program.getD 0 0).extractLsb' 0 24 ≠ 0 →
      Runs (.railRun x 0) s (fun e => e.eu.reply = replyOf x s stPending [] ∧ e.ctl = { s.d.ctl with step := .rails }
        ∧ e.rail = { s.d.rail with
            st := .running, pc := 0, waiting := 3, steps := 1, retries := 0, attempt := 0, excludedRun := false, order := []
            delaying := [], shut := none
            slots := s.d.rail.slots.map (fun k => if k.rail = true ∨ k.st = .fault then { k with st := .off, enabled := false } else k) }
        ∧ Queued 0x0E00 0 e ∧ SameBut [.mode, .rails] s.d e))
    ∧ (s.d.rail.kind = 1 → (∀ i < 16, (s.d.slot i).rail = true → s.d.rail.needs i = 0 ∧ s.d.rail.delay i = 0) →
      (∃ i < 16, (s.d.slot i).rail = true) →
      Runs (.railRun x 0) s (fun e => e.eu.reply = replyOf x s stPending [] ∧ e.ctl = { s.d.ctl with step := .rails }
        ∧ e.rail.st = .running ∧ e.rail.attempt = 0 ∧ e.rail.retries = 0
        ∧ (∀ i < 16, (s.d.slot i).rail = true → (e.slot i).st = .enabling ∧ (e.slot i).enabled = true)
        ∧ Queued 0x0E00 0 e ∧ SameBut [.mode, .rails] s.d e))

/-- R494, R496, R498 and R500: ENERGY_TEST starts a capacitance test at step 1, or at step 2 with the store already low, or arms a calibration; while the energy
manager is unable it answers FAULT_ENERGY.
Completes (exec answers the next state that each clause describes, under conditions on the state and the operands alone): energyTestCapacitance,
energyTestCalibrate. -/
def Obligations.EnergyTestCommands : Prop :=
  ∀ (s : State) (x : Xact), Sent x 1 s →
    (Both x s (fun d => inO d = true ∧ d.unable = false ∧ d.egy.test = none) → Runs (.energyTestCapacitance x) s (fun e =>
      e.eu.reply = replyOf x s stPending []
      ∧ e.egy.test = some { step := if s.d.vOc < s.d.egy.vFull.toNat * 1000 - s.d.testWindow * 9 / 10 then 2 else 1
                            scheduled := false, sum := 0, window := 0, scans := 0, edgeV := 0, edgeI := 0 }
      ∧ SameBut [.energy, .rails] s.d e))
    ∧ (Both x s (fun d => inO d = true ∧ d.unable = false ∧ d.egy.calRunning = false) → Runs (.energyTestCalibrate x 1) s (fun e =>
      e.eu.reply = replyOf x s stPending [] ∧ e.egy = { s.d.egy with calRunning := true, cal1 := e.egy.cal1 } ∧ SameBut [.energy] s.d e))
    ∧ (inO (s.view x) = true → (s.view x).unable = true →
      exec (.energyTestCapacitance x) s = .next (answered x s stFaultEnergy [])
      ∧ exec (.energyTestCalibrate x 1) s = .next (answered x s stFaultEnergy []))
    ∧ (inO (s.view x) = true → (s.view x).unable = false → (s.view x).egy.test ≠ none →
      exec (.energyTestCapacitance x) s = .next (answered x s stDeniedState [(s.view x).eu.stateSeq]))

/-- R510, R523 and R524: HERD_CONFIG joins the herd in WAIT_RAILS at HERD_STATE 0 and pulls the line, or leaves it; both take the policy, T_STALL and, without the
address strap, the address. A join outside WAIT_RAILS is denied.
Completes (exec answers the next state that each clause describes, under conditions on the state and the operands alone): herdConfigJoin,
herdConfigLeave. -/
def Obligations.HerdConfigJoinsAndLeaves : Prop :=
  ∀ (s : State) (x : Xact) (a : BitVec 5) (policy : Byte) (tStall : BitVec 16), Sent x 4 s → (s.view x).eu.locked = false →
    policy.toNat ≤ 2 → tStall ≠ 0 →
    (let addr := if s.d.ident.strap1 then s.d.herd.addr else a
     (Both x s (fun d => inW d = true) → s.d.herd.joined = false → Runs (.herdConfigJoin x (0x80 ||| a.setWidth 8) policy tStall) s (fun e =>
        e.eu.reply = replyOf x s stOk []
        ∧ e.herd = { s.d.herd with
            joined := true, st := 0, counted := true, grabDue := false, holdRunning := false, stalled := false
            policy := policy.extractLsb' 0 2, tStall := tStall, addr := addr, pulling := e.herd.pulling }
        ∧ (s.d.herd.waitFor = none → e.herd.pulling = true)
        ∧ Queued 0x0F00 addr.toNat e ∧ SameBut [.herd] s.d e))
     ∧ (Both x s (fun d => inWO d = true) → s.d.herd.joined = true → Runs (.herdConfigLeave x (a.setWidth 8) policy tStall) s (fun e =>
        e.eu.reply = replyOf x s stOk []
        ∧ e.herd = { s.d.herd with
            joined := false, pulling := false, grabDue := false, holdRunning := false
            policy := policy.extractLsb' 0 2, tStall := tStall, addr := addr }
        ∧ Queued 0x0F01 (addr.toNat * 256) e ∧ SameBut [.herd] s.d e))
     ∧ (inO (s.view x) = true → (s.view x).herd.joined = false →
        exec (.herdConfigJoin x (0x80 ||| a.setWidth 8) policy tStall) s = .next (answered x s stDeniedState [(s.view x).eu.stateSeq])))

/-- R174, R602, R616 and Table 17.9: ROOSTER_LOAD writes its bytes into the pattern memory below the frame area; ROOSTER_SEND makes one host transmission
pending, and is denied while one is.
Completes (exec answers the next state that each clause describes, under conditions on the state and the operands alone): roosterLoad, roosterSend. -/
def Obligations.RoosterLoadsAndSends : Prop :=
  ∀ (s : State) (x : Xact),
    (∀ (o : BitVec 16) (data : List Byte), data ≠ [] → data.length ≤ 248 → o.toNat + data.length ≤ 384 → Sent x (2 + data.length) s →
      x.plen.toNat ≤ 252 →
      (s.view x).eu.locked = false → Both x s (fun d => inWO d = true ∧ d.roo.hostRange = none) →
      Runs (.roosterLoad x o data) s (fun e => e.eu.reply = replyOf x s stOk []
        ∧ (∀ i < 512, patternByte e.roo.pattern i = if o.toNat ≤ i ∧ i < o.toNat + data.length then data.getD (i - o.toNat) 0
            else patternByte s.d.roo.pattern i)
        ∧ e.roo = { s.d.roo with pattern := e.roo.pattern } ∧ SameBut [.rooster] s.d e))
    ∧ (∀ a n : BitVec 16, 1 ≤ n.toNat → a.toNat + n.toNat ≤ 4096 → Sent x 4 s →
      (Both x s (fun d => inOR d = true ∧ d.roo.hostRange = none) → Runs (.roosterSend x a n) s (fun e => e.eu.reply = replyOf x s stOk []
        ∧ e.roo = { s.d.roo with hostPending := some (a.toNat, n.toNat) } ∧ SameBut [.rooster] s.d e))
      ∧ (inOR (s.view x) = true → (s.view x).roo.hostRange ≠ none →
        exec (.roosterSend x a n) s = .next (answered x s stDeniedState [(s.view x).eu.stateSeq])))

/-! ### Power, resets and clocks (chapters 2 and 3) -/

/-- R17, R37, R38, R81, R132 and Tables 2.2 and 2.3: RESET_N released leaves UNPOWERED for CONFIG; the straps are taken once; the end of CONFIG loads the fuses and
clears the event queue for COLD_START; RESET_N asserted is a cold reset, latched in SAVE; the loss of VDD_AON keeps nothing but the flash.
Completes (exec answers the next state that each clause describes, under conditions on the state and the operands alone): resetNRelease, configDone,
strapSample, resetNAssert, vddAonLoss. -/
def Obligations.PowerAndResets : Prop :=
  ∀ s : State, s.d.out = Outbox.none →
    (s.d.ctl.mode = .unpowered → Runs .resetNRelease s (fun e =>
      e.ctl = { s.d.ctl with mode := .startup, step := .config, resetCause := 0, resetLow := false } ∧ SameBut [.mode] s.d e))
    ∧ (s.d.ctl.mode ≠ .unpowered → RestoreStays s → Runs .resetNRelease s (fun e =>
      e.ctl = { s.d.ctl with resetLow := false } ∧ SameBut [.mode] s.d e))
    ∧ (∀ a b : Bool, s.d.configuring = true → s.d.ident.sampled = false → Runs (.strapSample a b) s (fun e =>
      e.ident = { s.d.ident with strap0 := a, strap1 := b, sampled := true } ∧ SameBut [.ident] s.d e))
    ∧ (∀ f : Fuses, s.d.configuring = true → s.d.ident.sampled = true → s.d.startupHeld = false → Runs (.configDone f) s (fun e =>
      e.ident = { s.d.ident with serial := f.serial, herdAddr := f.herdAddr, dus := f.dus, cert := f.cert }
      ∧ e.ctl = { s.d.ctl with step := .waitRails, uptimeMs := 0, powerGoodSince := if s.d.ctl.pfailLow then none else some 0 }
      ∧ e.eu.stateSeq = 0 ∧ e.eu.waitBytes = (if s.d.ident.strap0 then 8 else 4)
      ∧ e.eu.queue.head? = some (eventOf 0x0100 s.d.ctl.resetCause.toNat)
      ∧ e.herd.addr = (if s.d.ident.strap1 then f.herdAddr else 0) ∧ e.roo.shortId = f.serial.extractLsb' 0 16
      ∧ SameBut [.plane, .mode, .ident, .herd, .rails, .rooster] s.d e))
    ∧ (∀ o, s.d.ctl.mode ≠ .unpowered → ¬(s.d.ctl.mode = .save ∧ s.d.rail.shut = none) → Runs (.resetNAssert o) s (fun e =>
      e.ctl.mode = .startup ∧ e.ctl.step = .config ∧ e.ctl.resetCause = 1 ∧ e.ctl.resetLow = true ∧ e.ctl.hostPath = false
      ∧ e.ctl.saveArmed = false ∧ e.ctl.resumeCount = s.d.ctl.resumeCount ∧ e.ident.sampled = false
      ∧ (∀ k ∈ e.rail.slots, k.enabled = false) ∧ (∀ i, memRead e.mem i = 0) ∧ e.eu.locked = false ∧ e.eu.stateSeq = 0
      ∧ e.cip = Cip.reset ∧ e.reg = Reg.reset ∧ e.ce = Dev.reset.ce ∧ e.mc = Dev.reset.mc
      ∧ e.img.slots = s.d.img.slots ∧ e.img.primary = s.d.img.primary ∧ e.img.secondary = s.d.img.secondary
      ∧ e.img.committed = s.d.img.committed ∧ e.img.records = s.d.img.records
      ∧ SameBut [.plane, .mode, .clock, .ident, .ports, .regions, .engines, .channels, .dram, .config, .image, .cipher, .rails, .energy
                 , .admission, .saving, .restoring, .herd, .rooster, .thermal, .tasks] s.d e))
    ∧ (∀ o, s.d.ctl.mode = .save → s.d.rail.shut = none → Runs (.resetNAssert o) s (fun e =>
      e.ctl = { s.d.ctl with resetLow := true, resetLatched := true }
      ∧ e.eu.abandoned = (if o = true ∧ s.d.portLive = true then satInc s.d.eu.abandoned else s.d.eu.abandoned)
      ∧ Queued 0x0113 0 e ∧ SameBut [.plane, .mode] s.d e))
    ∧ (s.d.ctl.mode ≠ .unpowered → Runs .vddAonLoss s (fun e =>
      e.ctl.mode = .unpowered ∧ e.eu.queue = [] ∧ (∀ i, memRead e.mem i = 0) ∧ e.cip = Cip.reset ∧ e.rail = Rail.reset ∧ e.adc = Adc.reset
      ∧ e.img.slots = s.d.img.slots ∧ e.img.primary = s.d.img.primary ∧ e.img.secondary = s.d.img.secondary
      ∧ e.img.committed = s.d.img.committed ∧ e.img.records = s.d.img.records))

/-- R19 and R31 to R36: PLL_LOCK in WAIT_REFCLK begins the switch to REFCLK, whose end is that of the step; a measurement of HOSC is kept; the loss of REFCLK closes the path, takes the
ports down and switches to HOSC; its return lets the ports train again; the end of a clock switch takes the ranks out of self-refresh.
Completes (exec answers the next state that each clause describes, under conditions on the state and the operands alone): pllLock, refclkLost,
refclkBack, clkSwitchDone, hoscMeasure. -/
def Obligations.ClockUnit : Prop :=
  ∀ s : State, Live s → RestoreStays s →
    (∀ dev, s.d.inWaitRefclk = true → s.d.clk.switching = false → Runs (.pllLock dev) s (fun e =>
        e.clk = { s.d.clk with
          refGood := true, pllLocked := true, switching := true, target := false, hoscDev := dev, hoscOut := e.clk.hoscOut }
        ∧ driftSeen dev e
        ∧ (∀ p, (mayWake s.d (s.d.port p) → (e.port p).link = .detect) ∧ (¬mayWake s.d (s.d.port p) → (e.port p).link = (s.d.port p).link))
        ∧ SameBut [.plane, .clock, .ports] s.d e))
    ∧ (s.d.inWaitRefclk = true → s.d.clk.switching = true → s.d.clk.target = false → s.d.clk.refGood = true → s.d.clk.pllLocked = true →
      Runs .clkSwitchDone s (fun e =>
        e.ctl = { s.d.ctl with step := .dram } ∧ e.clk = { s.d.clk with switching := false, src := false }
        ∧ e.mc = s.d.mc.map (fun m => { m with stage := 1 }) ∧ SameBut [.mode, .clock, .channels] s.d e))
    ∧ (∀ dev, s.d.clk.refGood = true → Runs (.hoscMeasure dev) s (fun e => driftSeen dev e
        ∧ e.clk = { s.d.clk with hoscDev := dev, hoscOut := e.clk.hoscOut } ∧ SameBut [.plane, .clock] s.d e))
    ∧ (s.d.clk.refGood = true → s.d.ctl.mode ∈ [.operate, .restore, .safehold] → Runs .refclkLost s (fun e =>
        e.ctl = { s.d.ctl with hostPath := false, pathCause := 3, entry := none, entrySwitching := false }
        ∧ e.clk = { s.d.clk with
            refGood := false, pllLocked := false, switching := s.d.clk.switching || !s.d.clk.src
            target := if s.d.clk.switching || s.d.clk.src then s.d.clk.target else true }
        ∧ (∀ c : Fin 4, (e.chan c).used = true → (e.chan c).offline = false → (e.chan c).onPoint1 = true)
        ∧ (s.d.clk.pllLocked = true → ∀ p, (e.port p).link = .disabled) ∧ e.eu.refclkLostSeen = true
        ∧ Queued 0x0140 (if s.d.clk.switching then 1 else 0) e ∧ (s.d.ctl.hostPath = true → Queued 0x0104 3 e)
        ∧ SameBut [.plane, .mode, .clock, .ports, .channels, .tasks] s.d e))
    ∧ (s.d.clk.refGood = false → s.d.clk.src = true → Runs .refclkBack s (fun e =>
        e.clk.refGood = true ∧ Queued 0x0141 (if s.d.clk.switching then 1 else 0) e ∧ SameBut [.clock, .ports] s.d e))
    ∧ (s.d.clk.refGood = false → s.d.ctl.mode ≠ .startup → Runs .refclkBack s (fun e =>
        e.clk = { s.d.clk with refGood := true, pllLocked := true }
        ∧ (s.d.clk.src = true ∨ s.d.clk.switching = true ∧ s.d.clk.target = true → Queued 0x0141 (if s.d.clk.switching then 1 else 0) e)
        ∧ (∀ p, mayWake s.d (s.d.port p) → s.d.ctl.mode ≠ .save → (e.port p).link = .detect)
        ∧ SameBut [.clock, .ports] s.d e))
    ∧ (s.d.clk.switching = true → s.d.clk.target = true → s.d.ctl.entry = none → s.d.ctl.mode ∈ [.operate, .restore, .safehold] →
      Runs .clkSwitchDone s (fun e =>
        e.clk = { s.d.clk with switching := false, src := true } ∧ (∀ c : Fin 4, (e.chan c).selfRefresh = false)
        ∧ SameBut [.clock, .channels] s.d e))
    ∧ (s.d.clk.switching = true → s.d.clk.target = false → s.d.ctl.entry ≠ none → s.d.ctl.mode ≠ .startup → Runs .clkSwitchDone s (fun e =>
        e.clk = { s.d.clk with switching := false, src := false } ∧ e.ctl = { s.d.ctl with entrySwitching := false }
        ∧ (∀ c : Fin 4, (e.chan c).selfRefresh = false
            ∧ ((s.d.chan c).used = true → (s.d.chan c).offline = false → (e.chan c).onPoint1 = false))
        ∧ SameBut [.mode, .clock, .channels, .tasks] s.d e))

/-- R39, R40, R85, R86 and Table 3.13: a domain that falls below its minimum is reported; a fabric domain takes the ports down, another one in STARTUP drops every PS_EN, and one in
a running mode begins the unsaved shutdown. A domain that is good again lets the ports train, or starts STARTUP again. FRESET takes its port, and no other, down.
Completes (exec answers the next state that each clause describes, under conditions on the state and the operands alone): domainFault, domainGood,
fresetAssert, fresetRelease. -/
def Obligations.DomainsAndPortResets : Prop :=
  ∀ s : State, s.d.out = Outbox.none → RestoreStays s →
    (∀ (n : Fin 7) (o : Bool), s.d.ctl.mode ≠ .unpowered → s.d.ctl.domainsDown.getLsbD n = false →
      (s.d.alive = false → n = 4 ∨ n = 5 → Runs (.domainFault n o) s (fun e =>
        e.ctl = { s.d.ctl with domainsDown := s.d.ctl.domainsDown ||| BitVec.ofNat 7 (2 ^ n.val) } ∧ SameBut [.mode] s.d e))
      ∧ (s.d.alive = false → n ≠ 4 → n ≠ 5 → Runs (.domainFault n o) s (fun e =>
        e.ctl = { s.d.ctl with domainsDown := s.d.ctl.domainsDown ||| BitVec.ofNat 7 (2 ^ n.val), domainHold := true }
        ∧ (∀ k ∈ e.rail.slots, k.enabled = false) ∧ SameBut [.mode, .rails] s.d e))
      ∧ (s.d.alive = true → Runs (.domainFault n o) s (fun e => Queued 0x0E70 n e))
      ∧ (s.d.alive = true → n = 4 ∨ n = 5 → Runs (.domainFault n o) s (fun e =>
        e.ctl = { s.d.ctl with domainsDown := s.d.ctl.domainsDown ||| BitVec.ofNat 7 (2 ^ n.val) } ∧ e.eu.domainFaultSeen = true
        ∧ (∀ p, (e.port p).link = .disabled) ∧ SameBut [.plane, .mode, .ports, .rails, .image] s.d e))
      ∧ (s.d.alive = true → n ≠ 4 → n ≠ 5 → s.d.ctl.mode = .startup → Runs (.domainFault n o) s (fun e =>
        e.ctl = { s.d.ctl with domainsDown := s.d.ctl.domainsDown ||| BitVec.ofNat 7 (2 ^ n.val), domainHold := true } ∧ e.eu.domainFaultSeen = true
        ∧ (∀ k ∈ e.rail.slots, k.enabled = false) ∧ e.rail.pending = [] ∧ SameBut [.plane, .mode, .rails, .image] s.d e))
      ∧ (n ≠ 4 → n ≠ 5 → s.d.ctl.mode ∈ [.operate, .restore, .safehold] → s.d.shutting = false → Runs (.domainFault n o) s (fun e =>
        e.ctl.hostPath = false ∧ Queued 0x0112 2 e)))
    ∧ (∀ n : Fin 7, s.d.alive = true → s.d.ctl.domainsDown.getLsbD n = true →
      (n = 4 ∨ n = 5 → s.d.startupHeld = false → Runs (.domainGood n) s (fun e =>
        e.ctl = { s.d.ctl with domainsDown := s.d.ctl.domainsDown &&& ~~~BitVec.ofNat 7 (2 ^ n.val) } ∧ Queued 0x0E71 n e
        ∧ SameBut [.mode, .ports] s.d e))
      ∧ (n ≠ 4 → n ≠ 5 → s.d.ctl.mode ≠ .startup → Runs (.domainGood n) s (fun e =>
        e.ctl = { s.d.ctl with domainsDown := s.d.ctl.domainsDown &&& ~~~BitVec.ofNat 7 (2 ^ n.val) } ∧ Queued 0x0E71 n e
        ∧ SameBut [.mode] s.d e))
      ∧ (s.d.startupHeld = true → s.d.ctl.domainsDown &&& ~~~BitVec.ofNat 7 (2 ^ n.val) = 0 →
        Runs (.domainGood n) s (fun e => e.ctl.mode = .startup ∧ e.ctl.step = .config ∧ e.ctl.resetCause = 0 ∧ Queued 0x0E71 n e)))
    ∧ (∀ n : Fin 7, s.d.alive = false → s.d.startupHeld = true → s.d.ctl.domainsDown = BitVec.ofNat 7 (2 ^ n.val) →
        Runs (.domainGood n) s (fun e => e.ctl.mode = .startup ∧ e.ctl.step = .config ∧ e.ctl.resetCause = 0 ∧ e.ident.sampled = false
          ∧ e.ctl.domainsDown = 0))
    ∧ (∀ p q : Port, p ≠ q → s.d.alive = true → Runs (.fresetAssert p) s (fun e =>
        (e.port p).fresetLow = true ∧ (e.port p).reads = (s.d.port p).reads
        ∧ (s.d.ctl.mode ≠ .save → (e.port p).link = .disabled ∧ ((s.d.port p).link ≠ .disabled → Queued 0x0201 (portCode p * 256) e))
        ∧ (s.d.ctl.mode = .save → (e.port p).link = (s.d.port p).link)
        ∧ { e.port q with inflight := [], cq := [] } = { s.d.port q with inflight := [], cq := [] } ∧ SameBut [.ports] s.d e)
      ∧ Runs (.fresetRelease p) s (fun e => (e.port p).fresetLow = false
        ∧ (mayWake s.d { s.d.port p with fresetLow := false } → s.d.clk.refGood = true → s.d.clk.pllLocked = true → s.d.ctl.mode ≠ .save →
            (e.port p).link = .detect)
        ∧ { e.port q with inflight := [], cq := [] } = { s.d.port q with inflight := [], cq := [] } ∧ SameBut [.ports] s.d e))

/-! ### The stages of STARTUP (chapters 9 and 11) -/

/-- R74, R75, R303 to R308, R343, R347 and Tables 9.3 and 9.4: each stage of the DRAM step does to its channel what it found, and no channel but its own goes offline.
Completes (exec answers the next state that each clause describes, under conditions on the state and the operands alone): dramStageDone. -/
def Obligations.DramStagesAreTaken : Prop :=
  ∀ (s : State) (c : Fin 4), Live s → s.d.inDramStep = true →
    (∀ ohms, (s.d.chan c).stage = 1 → (∃ k : Fin 4, k ≠ c ∧ (s.d.chan k).stage = 1) → Runs (.dramStageDone c (.rzq ohms)) s (fun e =>
      (ohms < 24 → e.mc = s.d.mc.modify c (fun m => { m with used := false, stage := 7 }) ∧ SameBut [.channels, .config] s.d e)
      ∧ (216 ≤ ohms → ohms ≤ 264 → e.mc = s.d.mc.modify c (fun m => { m with used := true, stage := 2 }) ∧ SameBut [.channels, .config] s.d e)
      ∧ (24 ≤ ohms → ¬(216 ≤ ohms ∧ ohms ≤ 264) → e.mc = s.d.mc.modify c (fun m => { m with used := false, stage := 7 })
          ∧ e.ctl.safeholdCauses = s.d.ctl.safeholdCauses ||| 2 ∧ SameBut [.mode, .channels, .config] s.d e)))
    ∧ (∀ ok drfm rfm, (s.d.chan c).stage = 2 → (∀ m ∈ s.d.mc, m.stage ≠ 1) → Runs (.dramStageDone c (.init ok drfm rfm)) s (fun e =>
      (ok = true → (e.chan c).stage = 3 ∧ (e.chan c).drfm = drfm ∧ (e.chan c).rfm = rfm ∧ (e.chan c).onPoint1 = true
          ∧ (e.chan c).offline = (s.d.chan c).offline ∧ (∀ k : Fin 4, k ≠ c → e.chan k = s.d.chan k) ∧ SameBut [.channels, .config] s.d e)
      ∧ (ok = false → wentOffline c 2 e)))
    ∧ (∀ present, (s.d.chan c).stage = 3 → Runs (.dramStageDone c (.ranks present)) s (fun e =>
      (∀ n : Fin 4, present.toNat = 2 ^ (n.val + 1) - 1 →
          e.mc = s.d.mc.modify c (fun m => { m with ranks := BitVec.ofNat 2 n, stage := 4, point1Done := false })
          ∧ SameBut [.channels, .config] s.d e)
      ∧ (present.toNat ∉ [1, 3, 7, 15] → wentOffline c 3 e)))
    ∧ (∀ w, (s.d.chan c).stage = 4 → (s.d.chan c).point1Done = false → Runs (.dramStageDone c (.trainSave w)) s (fun e =>
      (let k := (s.d.chan c).trainPoint 1 w
       (e.chan c).train = k.train ∧ (e.chan c).vref = k.vref ∧ (e.chan c).ca = k.ca
       ∧ (pointValid k.train 1 = true → (e.chan c).stage = 4 ∧ (e.chan c).point1Done = true ∧ (e.chan c).offline = (s.d.chan c).offline
            ∧ (∀ k : Fin 4, k ≠ c → e.chan k = s.d.chan k) ∧ SameBut [.channels, .config] s.d e)
       ∧ (pointValid k.train 1 = false → wentOffline c 4 e))))
    ∧ (∀ w, (s.d.chan c).stage = 4 → (s.d.chan c).point1Done = true → s.d.allPast 3 = true →
      Runs (.dramStageDone c (.trainOperate w)) s (fun e =>
      (let k := (s.d.chan c).trainPoint 0 w
       (e.chan c).train = k.train ∧ (e.chan c).vref = k.vref ∧ (e.chan c).ca = k.ca ∧ (e.chan c).edges = k.edges
       ∧ (e.chan c).rankEyes = k.rankEyes
       ∧ (pointValid k.train 0 = true → (e.chan c).stage = 5 ∧ (e.chan c).trained = true ∧ (e.chan c).passTemp = s.d.therm.tDie
            ∧ (e.chan c).offline = (s.d.chan c).offline ∧ (∀ k : Fin 4, k ≠ c → e.chan k = s.d.chan k)
            ∧ SameBut [.channels, .config, .tasks] s.d e)
       ∧ (pointValid k.train 0 = false → wentOffline c 4 e))))
    ∧ (∀ a b g h i j, (s.d.chan c).stage = 5 → Runs (.dramStageDone c (.probe a b g h i j)) s (fun e =>
      (∀ k, densityOf a b g h i j = some k → e.mc = s.d.mc.modify c (fun m => { m with density := k, probed := true, stage := 6 })
          ∧ SameBut [.channels, .config] s.d e)
      ∧ (densityOf a b g h i j = none → wentOffline c 5 e)))
    ∧ ((s.d.chan c).stage = 6 → s.d.allPast 5 = true →
      (let r := s.d.chan (s.d.findReference.getD c)
       Runs (.dramStageDone c .check) s (fun e =>
        ((s.d.chan c).ranks = r.ranks → (s.d.chan c).density = r.density → tableOk (s.d.chan c) s.d.dcfg.opRate = true →
          (e.chan c).stage = 7 ∧ (e.chan c).offline = (s.d.chan c).offline
          ∧ ((∃ m ∈ s.d.mc.eraseIdx c, m.stage ≠ 7) → SameBut [.channels, .config] s.d e)
          ∧ ((∀ m ∈ s.d.mc.eraseIdx c, m.stage = 7) → e.ctl = { s.d.ctl with step := .image } ∧ e.img.stage = 1
              ∧ SameBut [.mode, .channels, .config, .image] s.d e))
        ∧ ((s.d.chan c).ranks ≠ r.ranks ∨ (s.d.chan c).density ≠ r.density ∨ tableOk (s.d.chan c) s.d.dcfg.opRate = false →
          wentOffline c 6 e))))

/-- R389 to R391, R399, R404, R421 to R424, R434, R435, R440 and Tables 11.9 to 11.11: each stage of image discovery in STARTUP takes what the flash answered; the last one reports IMAGE_FOUND and
leaves STARTUP.
Completes (exec answers the next state that each clause describes, under conditions on the state and the operands alone): imageStageDone. -/
def Obligations.ImageStagesAreTaken : Prop :=
  ∀ s : State, Live s → s.d.ctl.mode = .startup → s.d.discovering = true →
    (∀ present gs, s.d.img.stage = 1 → Runs (.imageStageDone (.params present gs)) s (fun e =>
      e.img.stage = 2 ∧ e.img.targetMap = present ∧ e.img.geom = gs.headD FlashGeom.none
      ∧ (stage1Reason present gs = none → e.img.usable = true)
      ∧ (∀ r, stage1Reason present gs = some r → e.img.usable = false ∧ Queued 0x0C02 r e) ∧ SameBut [.image] s.d e))
    ∧ (∀ bad found reads, s.d.img.stage = 2 → s.d.img.usable = true → Runs (.imageStageDone (.records bad found reads)) s (fun e =>
      e.img.stage = 3 ∧ e.img.ratedInUse = e.img.ratedCycles
      ∧ (∀ l, found = some l → e.img.records = [l[0]?, l[1]?]) ∧ (found = none → e.img.records = s.d.img.records)
      ∧ (e.img.sys.length < 16 → e.img.usable = false ∧ Queued 0x0C02 2 e)
      ∧ (∀ r, 16 ≤ e.img.sys.length → e.recordSet = some r → e.img.usable = true ∧ e.img.usedPages = r.usedPages
          ∧ e.img.lifePages = r.lifePages ∧ e.img.serviceDays = r.serviceDays ∧ e.img.blockCycles = r.blocks
          ∧ e.egy.capMf = r.capMf ∧ e.egy.esr = r.esr ∧ e.therm.hist = List.zipWith satSum r.hist s.d.therm.hist)
      ∧ SameBut [.image, .energy, .thermal] s.d e))
    ∧ (∀ found reads, s.d.img.stage = 3 → s.d.img.usable = true → Runs (.imageStageDone (.headers found reads)) s (fun e =>
      e.img.stage = 4 ∧ e.img.candidate = candidateOf e.headers ∧ e.img.seqReserve = (e.headers.map (·.seqReserve)).foldl max 0
      ∧ SameBut [.image, .cipher] s.d e))
    ∧ (s.d.img.stage = 4 → Runs (.imageStageDone .classify) s (fun e =>
      e.img.cls = s.d.classOf ∧ e.img.stage = (if s.d.img.deferred then 7 else 5)
      ∧ (s.d.cip.trngFault = false → e.cip.domKey = (List.range 7).map (fun i => s.d.free + 1 + i))
      ∧ (∀ h k, s.d.img.candidate = some h → s.d.classOf = 1 → openHeader s.d.dbk h.wrapDev h = some k →
          e.cip.bound = true ∧ e.cip.imk = k.1 ∧ e.cip.imkOld = k.2 ∧ e.cip.imkGen = h.keyGen)
      ∧ (s.d.classOf ≠ 1 → e.cip.imk = s.d.cip.imk ∧ e.cip.bound = s.d.cip.bound) ∧ SameBut [.image, .cipher] s.d e))
    ∧ (∀ entries reads altered, s.d.img.stage = 5 → Runs (.imageStageDone (.loadMap entries reads altered)) s (fun e => e.img.stage = 6
      ∧ (s.d.img.cls = 1 → s.d.mapReads s.d.imageKeys reads altered = true → e.img.cls = 1 ∧ e.cip.bound = s.d.cip.bound)
      ∧ (s.d.img.cls = 1 → s.d.mapReads s.d.imageKeys reads altered = false → e.img.cls = 3 ∧ e.cip.bound = false)
      ∧ SameBut [.image, .cipher] s.d e))
    ∧ (s.d.img.stage = 6 → Runs (.imageStageDone .zeroFill) s (fun e =>
      e.img.stage = 7 ∧ (∀ i, memRead e.mem i = 0) ∧ e.cip.burstKeys = [] ∧ SameBut [.dram, .image, .cipher] s.d e))
    ∧ (s.d.img.stage = 7 → Runs (.imageStageDone .finish) s (fun e =>
      e.img.stage = 0 ∧ e.img.state = s.d.img.cls ∧ e.egy.started = true
      ∧ (s.d.ctl.safeholdCauses = 0 → e.ctl.mode = .operate ∧ e.ctl.step = .done ∧ e.ctl.hostPath = s.d.ctl.hostPath ∧ Queued 0x0101 1 e)
      ∧ (s.d.ctl.safeholdCauses ≠ 0 → e.ctl.mode = .safehold ∧ e.ctl.returnMode = .operate ∧ e.ctl.hostPath = false ∧ Queued 0x0101 4 e)))

/-! ### The rail sequencer (chapter 13) -/

/-- R471, R476 to R482 and R628: a timer, or a slot that reads good or off, becomes one pending input; one of the same kind on the same slot is counted in the merged total instead.
Nothing acts on it before an evaluation.
Completes (exec answers the next state that each clause describes, under conditions on the state and the operands alone): railGood, railOff,
railOffTimeout, railUpTimeout, seqStepTimeout, seqWaitTimeExpire, seqDelayExpire, retryGapExpire. -/
def Obligations.SequencerInputsArePending : Prop :=
  ∀ s : State, Live s →
    (∀ (c : Instr) (i : SeqInput), inputOf s.d c = some i →
      ((∀ j ∈ s.d.rail.pending, j.rank ≠ i.rank) → Runs c s (fun e =>
        e.rail = { s.d.rail with pending := s.d.rail.pending ++ [i] } ∧ SameBut [.rails] s.d e))
      ∧ ((∃ j ∈ s.d.rail.pending, j.rank = i.rank) → (∀ j ∈ s.d.rail.pending, j.left = false) → Runs c s (fun e =>
        e.rail = { s.d.rail with
            coalesced := satInc s.d.rail.coalesced
            pending := s.d.rail.pending.map (fun k => if k.rank = i.rank then i else k) } ∧ SameBut [.rails] s.d e)))
    ∧ (∀ n : Fin 16,
      (let up := s.d.rail.slots.modify n (fun k => if k.pgUsed then { k with pg := true } else k)
       (up.getD n Slot.reset).good = true → (∀ j ∈ s.d.rail.pending, j.rank ≠ 400 + n) → Runs (.railGood n) s (fun e =>
        e.rail = { s.d.rail with slots := up, pending := s.d.rail.pending ++ [.powerGood n false] } ∧ SameBut [.rails] s.d e))
      ∧ (let off := s.d.rail.slots.modify n (fun k => if k.vsUsed then k else { k with pg := false })
       (off.getD n Slot.reset).rail = true → (off.getD n Slot.reset).isOff = true → (∀ j ∈ s.d.rail.pending, j.rank ≠ 400 + n) →
        Runs (.railOff n) s (fun e =>
        e.rail = { s.d.rail with slots := off, pending := s.d.rail.pending ++ [.powerGood n true] } ∧ SameBut [.rails] s.d e)))

/-- R476, R479, R483, R485, R486, R518, R535 to R537 and Table 13.5: an evaluation with nothing pending does nothing; the last slot good ends the attempt in WAIT_REFCLK; a power-fail input acted on in a running mode
enters SAVE when armed and otherwise begins the unsaved shutdown. A qualified rail fault takes its slot to FAULT, is reported and becomes pending; PFAIL_N is an input, in an ARMED herd a cut cause.
Completes (exec answers the next state that each clause describes, under conditions on the state and the operands alone): pfailNQualified,
seqEvaluate, railFault, pfailNRelease. -/
def Obligations.SequencerActsAndFaults : Prop :=
  ∀ s : State, Live s → RestoreStays s →
    (s.d.rail.pending = [] → Runs .seqEvaluate s (fun e => e.rail = s.d.rail ∧ SameBut [] s.d e))
    ∧ (∀ n : Fin 16, s.d.startupHeld = false → s.d.attempting = true → s.d.rail.kind = 1 → s.d.rail.pending = [.powerGood n false] →
        (s.d.slot n).st = .enabling → (s.d.slot n).good = true →
        (∀ i : Fin 16, i ≠ n → (s.d.slot i).rail = true → (s.d.slot i).st = .up ∨ (s.d.slot i).st = .excluded) →
      Runs .seqEvaluate s (fun e => e.ctl = { s.d.ctl with step := .waitRefclk } ∧ e.rail.st = .up ∧ (e.slot n).st = .up
        ∧ Queued 0x0E01 e.upMask e ∧ SameBut [.mode, .rails] s.d e))
    ∧ (∀ vin : Bool, s.d.rail.pending = [.pfail vin] → s.d.ctl.mode ∈ [.operate, .restore, .safehold] → s.d.shutting = false →
        s.d.rail.waiting ≠ 16 →
      (s.d.ctl.saveArmed = true → Runs .seqEvaluate s (fun e =>
        e.ctl = { s.d.ctl with
          mode := .save, lastTrigger := if vin then 3 else 2, hostPath := false, pathCause := 2, entry := none, entrySwitching := false }
        ∧ Queued 0x0110 ((if vin then 0x300 else 0x200) + s.d.ctl.mode.code) e
        ∧ SameBut [.plane, .mode, .engines, .channels, .image, .rails, .energy, .saving, .restoring, .rooster, .tasks] s.d e))
      ∧ (s.d.ctl.saveArmed = false → Runs .seqEvaluate s (fun e => e.ctl.hostPath = false ∧ Queued 0x0112 2 e)))
    ∧ (∀ (n : Fin 16) (cause : Fin 3), (s.d.slot n).st = .up → (cause = 0 → (s.d.slot n).pgUsed = true) →
        (cause ≠ 0 → (s.d.slot n).vsUsed = true) → s.d.herdArmed = false → (∀ j ∈ s.d.rail.pending, j.rank ≠ n) →
      Runs (.railFault n cause) s (fun e =>
        (e.slot n).st = .fault ∧ (e.slot n).enabled = false ∧ (e.slot n).faultCount = satInc (s.d.slot n).faultCount
        ∧ e.rail.faultValid = true ∧ e.rail.faultRail = BitVec.ofNat 4 n ∧ e.rail.pending = s.d.rail.pending ++ [.railFault n]
        ∧ Queued 0x0E05 (n * 65536 + cause * 256 + s.d.ctl.mode.code) e ∧ SameBut [.rails, .image] s.d e))
    ∧ (s.d.herdArmed = false → (∀ j ∈ s.d.rail.pending, j.rank ≠ 100) → Runs .pfailNQualified s (fun e =>
        e.ctl = { s.d.ctl with pfailLow := true, powerGoodSince := none }
        ∧ e.rail = { s.d.rail with pending := s.d.rail.pending ++ [.pfail false] } ∧ SameBut [.mode, .rails] s.d e))
    ∧ (s.d.herdArmed = true → s.d.ctl.saveArmed = true → s.d.ctl.mode = .operate → Runs .pfailNQualified s (fun e =>
        e.ctl.mode = .save ∧ e.ctl.lastTrigger = 2 ∧ e.herd.st = 8 ∧ Queued 0x0F03 0x102 e))
    ∧ Runs .pfailNRelease s (fun e =>
        e.ctl = { s.d.ctl with
          pfailLow := false
          powerGoodSince := if s.d.rail.vinFired then none else some (s.d.ctl.powerGoodSince.getD s.d.ctl.uptimeMs) }
        ∧ SameBut [.mode] s.d e)

/-! ### The phases of SAVE (chapter 15) -/

/-- R33, R38, R243, R541, R542, R544, R556, R559 and R633: the end of the drain starts phase 1 with the save set counted, and with it the switch to HOSC, or the fall of the ports where HOSC is
the source already; the end of that switch puts the ports down, and a switch to REFCLK that ran is followed by it; the end of phase 1 leaves the channels on point 1 and starts phase 2, or ends a
skipped SAVE; the end of an abandonment's wait reports it and begins the shutdown, or the cold reset of a latched RESET_N.
Completes (exec answers the next state that each clause describes, under conditions on the state and the operands alone): clkSwitchDone,
saveDrainDone, saveRateDone, saveAbandonWaitDone. -/
def Obligations.SavePhasesFollow : Prop :=
  ∀ s : State, Live s → s.d.ctl.mode = .save →
    (let fallen := fun (e : Dev) => ∀ p, (e.port p).link = .disabled ∧ ((s.d.port p).link ≠ .disabled → Queued 0x0201 (portCode p * 256 + 4) e)
     let early := (∀ k, s.d.img.commit = some k → k.cause ≠ 2 ∧ k.phase ≠ 4) ∧ ∀ c ∈ s.d.img.commitAsked, c ≠ 2
     (s.d.saving = true → s.d.sav.phase = 0 → s.d.drainedAll = true → early → Runs .saveDrainDone s (fun e =>
        e.sav.phase = 1
        ∧ e.sav.setSize = s.d.dirtyTotal + (s.d.img.copies.filter (fun c => c.purpose = 1 && !(s.d.entry c.granule).dirty)).length
        ∧ Queued 0x0114 (2 ^ 32 + s.d.sav.finished % 2 ^ 32) e
        ∧ (s.d.clk.switching = true → e.clk = s.d.clk)
        ∧ (s.d.clk.switching = false → s.d.clk.src = false → e.clk = { s.d.clk with switching := true, target := true })
        ∧ (s.d.clk.switching = false → s.d.clk.src = true → e.clk = s.d.clk ∧ fallen e)
        ∧ SameBut [.clock, .ports, .channels, .tasks, .saving] s.d e))
     ∧ (s.d.saving = true → s.d.sav.phase = 1 → s.d.ctl.entry = none → s.d.clk.switching = true → Runs .clkSwitchDone s (fun e =>
        (s.d.clk.target = true → e.clk = { s.d.clk with switching := false, src := true } ∧ fallen e ∧ SameBut [.clock, .ports] s.d e)
        ∧ (s.d.clk.target = false → e.clk = { s.d.clk with switching := true, target := true, src := false }
            ∧ SameBut [.clock, .channels, .tasks] s.d e)))
     ∧ (s.d.saving = true → s.d.sav.phase = 1 → s.d.clk.src = true → s.d.clk.switching = false → s.d.sav.markerGen = 0 → early →
        (s.d.sav.skip = false → Runs .saveRateDone s (fun e =>
          e.sav.phase = 2 ∧ e.sav.nandSlow = true ∧ Queued 0x0114 (2 * 2 ^ 32 + s.d.sav.finished % 2 ^ 32) e
          ∧ (∀ c : Fin 4, (e.chan c).selfRefresh = false ∧ ((s.d.chan c).used = true → (s.d.chan c).offline = false → (e.chan c).onPoint1 = true))
          ∧ SameBut [.channels, .tasks, .saving] s.d e))
        ∧ (s.d.sav.skip = true → Runs .saveRateDone s (fun e => Queued 0x0117 s.d.img.state.toNat e
          ∧ (s.d.canResume = true → s.d.ctl.resetLatched = false →
              e.ctl.mode = .save ∧ e.ctl.entry = some .resume ∧ e.clk.switching = true ∧ e.clk.target = false)))))
    ∧ (s.d.rail.abandonWait = true → s.d.ctl.resetLatched = false → Runs .saveAbandonWaitDone s (fun e =>
      Queued 0x0116 (s.d.sav.fault.1 % 256 * 65536 + s.d.sav.fault.2 % 256 * 256 + s.d.sav.phase.toNat) e ∧ Queued 0x0112 1 e))
    ∧ (s.d.rail.abandonWait = true → s.d.ctl.resetLatched = true → Runs .saveAbandonWaitDone s (fun e =>
      e.ctl.mode = .startup ∧ e.ctl.step = .config ∧ e.ctl.resetCause = 2 ∧ (∀ i, memRead e.mem i = 0)))

/-! ### The ADC, the energy store and admission (chapter 13) -/

/-- R469, R487, R497, R501 and R535: a scan is taken into every slot's reading, the ADC codes and the histories; the VIN monitor fires on the second scan
below VIN_MIN and is good again at 1.03 × VIN_MIN. Every 1 ms E_AVAIL, SAVE_BUDGET and ADMIT_LIMIT are computed anew.
Completes (exec answers the next state that each clause describes, under conditions on the state and the operands alone): adcScan, eAvailUpdate. -/
def Obligations.ScansAndEnergyAreTaken : Prop :=
  ∀ s : State, Live s → RestoreStays s →
    (∀ k : AdcScan, s.d.herdArmed = false →
      (let v := k.vin.toNat * s.d.egy.vinScale.toNat
       let lim := s.d.rail.vinMin * 100000
       Runs (.adcScan k) s (fun e => e.adc.vin = k.vin ∧ e.adc.vstore = k.vstore ∧ e.adc.ichg = k.ichg ∧ e.therm.tdRaw = k.td
        ∧ (∀ i < s.d.rail.slots.length, e.slot i = { s.d.slot i with vs := k.vs.getD i 0, pg := k.pg.getLsbD i })
        ∧ SameBut [.mode, .image, .rails, .adc, .energy, .thermal] s.d e)
       ∧ (s.d.rail.vinMin ≠ 0 → s.d.egy.vinScale ≠ 0 → s.d.rail.vinFired = false → v < lim →
          (s.d.rail.vinBelow = 0 → Runs (.adcScan k) s (fun e => e.rail.vinFired = false ∧ e.rail.vinBelow = 1))
          ∧ (s.d.rail.vinBelow ≠ 0 → (∀ j ∈ s.d.rail.pending, j.rank ≠ 100) → Runs (.adcScan k) s (fun e =>
            e.rail.vinFired = true ∧ Queued 0x0E15 k.vin.toNat e ∧ SeqInput.pfail true ∈ e.rail.pending
            ∧ (s.d.rail.delaying = [] → e.rail.pending = s.d.rail.pending ++ [.pfail true])
            ∧ e.ctl.powerGoodSince = none)))
       ∧ (s.d.rail.vinMin ≠ 0 → s.d.egy.vinScale ≠ 0 → s.d.rail.vinFired = true →
          (lim * 103 ≤ v * 100 → Runs (.adcScan k) s (fun e => e.rail.vinFired = false ∧ Queued 0x0E16 k.vin.toNat e))
          ∧ (v * 100 < lim * 103 → Runs (.adcScan k) s (fun e => e.rail.vinFired = true)))))
    ∧ Runs .eAvailUpdate s (fun e =>
        e.ctl = { s.d.ctl with uptimeMs := s.d.ctl.uptimeMs + 1 }
        ∧ e.egy = { s.d.egy with
            eAvail := satBits 32 s.d.eAvailNow, testAgeMs := s.d.egy.testAgeMs + 1, cal1 := e.egy.cal1
            saveBudget := satBits 32 (budgetOf s.d.eAvailNow s.d.egy.costFixed.toNat s.d.egy.costPj.toNat) }
        ∧ e.adm.limit = satBits 32 (min (budgetOf s.d.eAvailNow s.d.egy.costFixed.toNat s.d.egy.costPj.toNat) s.d.flashBound
            * s.d.adm.pct.toNat / 100)
        ∧ e.adm.mode = s.d.adm.mode ∧ e.adm.pct = s.d.adm.pct ∧ SameBut [.mode, .energy, .admission] s.d e)

/-- R491 and R493: a charger window with a mean below 100 mA, and V_oc below 0.99 V_FULL_MV, faults the charger; one without ends a retry well. The retry
of a charger in FAULT raises CHG_EN at ISET_MAX.
Completes (exec answers the next state that each clause describes, under conditions on the state and the operands alone): chargerWindow, chargerRetry. -/
def Obligations.ChargerWindowsAndRetries : Prop :=
  ∀ s : State, Live s → s.d.unconfigured = false → s.d.chargerBlocked = false →
    (let sum := if s.d.egy.winScans = 0 then s.d.store5 else s.d.egy.winSum
     let low := sum < 40 * ((max 1 s.d.egy.winScans : Nat) : Int) ∧ s.d.vOc * 100 < s.d.egy.vFull.toNat * 99000
     (s.d.egy.chgEn = true → low → s.d.egy.charger ≠ .fault → Runs .chargerWindow s (fun e =>
        e.egy.charger = .fault ∧ e.egy.chgEn = false ∧ Queued 0x0E10 0 e ∧ SameBut [.rails, .image, .energy] s.d e))
     ∧ (s.d.egy.chgEn = true → low → s.d.egy.charger = .fault → Runs .chargerWindow s (fun e =>
        e.egy.charger = .fault ∧ e.egy.chgEn = false ∧ e.egy.retrying = false ∧ SameBut [.energy] s.d e))
     ∧ (s.d.egy.chgEn = true → ¬low → s.d.egy.retrying = true → Runs .chargerWindow s (fun e =>
        e.egy.charger ≠ .fault ∧ e.egy.retrying = false ∧ Queued 0x0E11 0 e ∧ SameBut [.energy] s.d e))
     ∧ (s.d.egy.chgEn = true → ¬low → s.d.egy.retrying = false → Runs .chargerWindow s (fun e =>
        e.egy = { s.d.egy with winSum := 0, winScans := 0, cal1 := e.egy.cal1 } ∧ SameBut [.energy] s.d e))
     ∧ (s.d.egy.charger = .fault → s.d.egy.retrying = false → Runs .chargerRetry s (fun e =>
        e.egy.charger = .fault ∧ e.egy.retrying = true ∧ e.egy.chgEn = true ∧ e.egy.iset = s.d.egy.isetMax ∧ SameBut [.energy] s.d e)))

/-- R494, R495 and R499: an instance of task 3 starts the test; step 1 leads to step 2 and step 2 to step 3; the last step writes CAP_MF and ESR; a step that
lasts too long or carries no current fails the test.
Completes (exec answers the next state that each clause describes, under conditions on the state and the operands alone): energyTestStart,
energyTestStepDone, energyTestTimeout. -/
def Obligations.EnergyTestsRun : Prop :=
  ∀ s : State, Live s → s.d.unconfigured = false →
    ((s.d.ctl.mode = .operate ∨ s.d.ctl.mode = .safehold) → s.d.egy.test = none → s.d.egy.charger ≠ .fault → s.d.chargerBlocked = false →
        (s.d.task 9).anchor ≠ none → Runs .energyTestStart s (fun e =>
      e.egy.test = some { step := if s.d.vOc < s.d.egy.vFull.toNat * 1000 - s.d.testWindow * 9 / 10 then 2 else 1
                          scheduled := true, sum := 0, window := 0, scans := 0, edgeV := 0, edgeI := 0 }
      ∧ SameBut [.energy, .rails, .tasks] s.d e))
    ∧ (∀ t : ETest, s.d.egy.test = some t →
      (t.step = 1 → Runs .energyTestStepDone s (fun e =>
        e.egy.test = some { t with step := 2, sum := 0, window := 0, scans := 0 } ∧ SameBut [.energy, .rails] s.d e))
      ∧ (t.step = 2 → t.scans ≠ 0 → 40 * (t.scans : Int) ≤ t.sum → Runs .energyTestStepDone s (fun e =>
        e.egy.test = some { t with step := 3 } ∧ SameBut [.energy] s.d e))
      ∧ (t.step = 2 → (t.scans = 0 ∨ t.sum < 40 * (t.scans : Int)) → Runs .energyTestStepDone s (fun e =>
        e.egy.test = none ∧ e.egy.fails = satInc s.d.egy.fails ∧ e.egy.capMf = s.d.egy.capMf ∧ e.egy.esr = s.d.egy.esr ∧ Queued 0x0E12 3 e
        ∧ SameBut [.rails, .image, .energy] s.d e))
      ∧ (t.step = 3 → Runs .energyTestStepDone s (fun e =>
        e.egy.test = none ∧ e.egy.tests = satInc s.d.egy.tests ∧ e.egy.testAgeMs = 0 ∧ e.egy.fails = s.d.egy.fails
        ∧ e.egy.capMf = satBits 32 (s.d.capOf t) ∧ e.egy.esr = satBits 16 (s.d.esrOf t) ∧ Queued 0x0E12 0 e
        ∧ (s.d.egy.costFixed.toNat < e.eFull → SameBut [.mode, .energy] s.d e)
        ∧ (e.eFull ≤ s.d.egy.costFixed.toNat → e.ctl.safeholdCauses.getLsbD 2 = true ∧ Queued 0x0E14 e.eFull e)))
      ∧ (t.step = 1 ∨ t.step = 2 → Runs .energyTestTimeout s (fun e =>
        e.egy.test = none ∧ e.egy.fails = satInc s.d.egy.fails ∧ Queued 0x0E12 t.step e ∧ SameBut [.rails, .image, .energy] s.d e)))

/-! ### The fabric ports (chapter 7) -/

/-- R201, R206 to R213, R237 and Table 7.2: what each step of training does to its port; nothing else changes but what a step reports.
Completes (exec answers the next state that each clause describes, under conditions on the state and the operands alone): linkDetect, tb1Rx,
eqPresetStep, linkTrainTimeout, retrainTimeout, blockLockLost, psoRx. -/
def Obligations.TrainingSteps : Prop :=
  ∀ (s : State) (p : Port), Live s →
    (let f := s.d.port p
     let detect := { anew f .detect with
       afterRetrain := false, holdsState := false, useWidth := f.maxWidth, useRate := f.maxRate, rate := 0, width := 0, eqFailed := false
       bestPreset := 11, keptPreset := 11 }
     let polls := { anew detect .poll with rate := 1 }
     let again := { anew f .retrain with episodes := 0, skipToPso := false, resend := [] }
     let short := { anew f .config with eqFailed := true }
     let retrain := fun (c : Nat) (e : Dev) => PortBecomes p again [fabTb1 again] [] s e
       ∧ Queued 0x0202 (portCode p * 256 + c) e
     (f.link = .detect → Runs (.linkDetect p true) s (PortBecomes p polls [fabTb1 polls] [] s)
        ∧ Runs (.linkDetect p false) s (PortBecomes p f [] [] s))
     ∧ (∀ b, tbSym b 0 = 0x5C → tbGood b = true →
        (f.link = .poll → tbSym b 1 = 0 →
          (let g := { f with
             txPreset := (tbPreset b).getD f.txPreset, tb1Good := f.tb1Good + 1, hostRates := tbRates b, hostWidth := tbWidth b }
           (f.tb1Good < 7 → Runs (.tb1Rx p b) s (PortBecomes p g [fabTb1 f] [] s))
           ∧ (7 ≤ f.tb1Good → Runs (.tb1Rx p b) s (PortBecomes p (anew g .config) [fabTb1 f, fabTb2 (anew g .config)] [] s))))
        ∧ (f.link = .active → Runs (.tb1Rx p b) s (retrain 2)))
     ∧ (f.link = .poll → Runs (.linkTrainTimeout p) s (PortBecomes p detect [] [] s))
     ∧ (f.link = .config → Runs (.linkTrainTimeout p) s (PortBecomes p detect [] [] s))
     ∧ (f.link = .eq → Runs (.linkTrainTimeout p) s (PortBecomes p short [fabTb2 short] [] s))
     ∧ (f.link = .retrain → Runs (.retrainTimeout p) s
        (let g := { anew f .poll with rate := 1, keptPreset := 11, afterRetrain := true, eqFailed := false }
         PortBecomes p g [fabTb1 g] [] s))
     ∧ (∀ lane, f.link = .active → lane < f.width.toNat → Runs (.blockLockLost p lane) s (retrain 1))
     ∧ (f.link = .active → Runs (.psoRx p) s (PortBecomes p { f with skipToPso := false } [] [] s))
     ∧ (∀ eye, f.link = .eq →
        (let next := { f with presetStep := f.presetStep + 1 }
         let better := { next with bestEye := eye, bestPreset := f.presetStep }
         let done := { anew f .config with presetStep := 11, rate := f.eqRate, keptPreset := f.bestPreset }
         let found := { anew f .config with presetStep := 11, rate := f.eqRate, keptPreset := 10, bestEye := eye, bestPreset := 10 }
         let none := { short with presetStep := 11 }
         (f.presetStep < 10 → (f.bestPreset = 11 ∨ f.bestEye < eye) → Runs (.eqPresetStep p eye true) s (PortBecomes p better [fabTb1 better] [] s))
         ∧ (f.presetStep < 10 → f.bestPreset ≠ 11 → eye ≤ f.bestEye → Runs (.eqPresetStep p eye true) s (PortBecomes p next [fabTb1 next] [] s))
         ∧ (f.presetStep < 10 → Runs (.eqPresetStep p eye false) s (PortBecomes p next [fabTb1 next] [] s))
         ∧ (f.presetStep = 10 → f.bestPreset ≠ 11 → eye ≤ f.bestEye → Runs (.eqPresetStep p eye true) s (PortBecomes p done [fabTb2 done] [] s))
         ∧ (f.presetStep = 10 → f.bestPreset ≠ 11 → Runs (.eqPresetStep p eye false) s (PortBecomes p done [fabTb2 done] [] s))
         ∧ (f.presetStep = 10 → (f.bestPreset = 11 ∨ f.bestEye < eye) → Runs (.eqPresetStep p eye true) s (PortBecomes p found [fabTb2 found] [] s))
         ∧ (f.presetStep = 10 → f.bestPreset = 11 → Runs (.eqPresetStep p eye false) s (PortBecomes p none [fabTb2 none] [] s)))))

/-- R201, R206, R208 to R210, R212 and Table 7.2: TB2 blocks count towards agreement; an agreed exchange tries the next rate, or enters ACTIVE at the width of
R201, from a fresh start or keeping the link-layer state of a retrain.
Completes (exec answers the next state that each clause describes, under conditions on the state and the operands alone): tb2Rx. -/
def Obligations.TrainingAgrees : Prop :=
  ∀ (s : State) (p : Port) (b : BitVec 128) (lanes : BitVec 8), Live s → tbSym b 0 = 0x5D → tbGood b = true →
    (let f := s.d.port p
     let g := { f with
       tb2Good := if b = f.tb2Last then f.tb2Good + 1 else 1, tb2Last := b, tb2Sent := f.tb2Sent + 1, laneLock := lanes
       hostRates := tbRates b, hostWidth := tbWidth b, hostResume := tbResume b, hostRxSeq := tbNextRx b, hostCredits := tbCredits b
       txPreset := (tbPreset b).getD f.txPreset }
     let agreed := 8 ≤ g.tb2Good ∧ 16 ≤ g.tb2Sent ∧ 5 ≤ (tbCredits b).toNat
     let up := fun (w : BitVec 4) (e : Dev) => Queued 0x0200 (portCode p * 65536 + f.rate.toNat * 256 + w.toNat) e
       ∧ ((f.rate.toNat < f.useRate.toNat ∨ w.toNat < f.useWidth.toNat) → Queued 0x0203 (portCode p * 65536 + f.rate.toNat * 256 + w.toNat) e)
     (f.link = .config ∨ f.link = .retrain → ¬agreed → Runs (.tb2Rx p b lanes) s (PortBecomes p g [fabTb2 f] [] s))
     ∧ (∀ w r : Nat, f.link = .config → agreed → fabWidthNow g = w → w ≠ 0 → fabNextRate g = some r → Runs (.tb2Rx p b lanes) s
        (let k := { anew g .eq with
           width := BitVec.ofNat 4 w, eqRate := BitVec.ofNat 2 r, presetStep := 0, bestEye := 0, bestPreset := 11 }
         PortBecomes p k [fabTb2 f, fabTb1 k] [] s))
     ∧ (∀ w : Nat, f.link = .config → agreed → fabWidthNow g = w → w ≠ 0 → fabNextRate g = none →
        (∀ r ∈ f.inflight, r.code ≠ none) → Runs (.tb2Rx p b lanes) s (fun e =>
          PortBecomes p { g with
            link := .active, width := BitVec.ofNat 4 w, holdsState := true, afterRetrain := false, episodes := 0, tb2Good := 0, tb2Sent := 0
            trainCount := satInc f.trainCount, retrains := if f.afterRetrain then satInc f.retrains else f.retrains
            txSeq := 0, rxSeq := 0, replay := [], resend := [], txLimit := tbCredits b, txConsumed := 0, rxLimit := 512
            rxConsumed := 0, lastCreditSent := 512, nakSent := false, skipToPso := true, ackOwed := 0, rx := [] }
            [fabTb2 f, fabPso { f with width := BitVec.ofNat 4 w }, bare (creditHeader 512)] [] s e
          ∧ (e.port p).cq = [] ∧ up (BitVec.ofNat 4 w) e))
     ∧ (f.link = .retrain → agreed → (∀ i < f.width.toNat, lanes.getLsbD i = true) → f.holdsState = true → tbResume b = true →
        Runs (.tb2Rx p b lanes) s (fun e =>
          (let left := if tbNextRx b = f.txSeq then [] else replayFrom (tbNextRx b) f.replay
           PortBecomes p { g with
            link := .active, afterRetrain := false, episodes := 0, tb2Good := 0, tb2Sent := 0, retrains := satInc f.retrains
            lastCreditSent := f.rxLimit, replay := left, resend := left, skipToPso := true }
            [fabTb2 f, fabPso f, bare (creditHeader f.rxLimit)] [] s e
          ∧ up f.width e))))

/-- R215, R227, R231, R233 to R235 and R247: a request in its place whose CRC-32 is right is accepted into the receive buffer; one already accepted is acknowledged again; one
ahead of its place is answered by one NAK; one that breaks the protocol retrains the link. A packet whose CRC is wrong is discarded with all up to the next PSO, and answered
by one NAK unless it is a link packet.
Completes (exec answers the next state that each clause describes, under conditions on the state and the operands alone): rd64, rd256, wr64, wr256,
packetCrcError. -/
def Obligations.RequestsAreReceived : Prop :=
  ∀ (s : State) (p : Port) (h : BitVec 128) (data : List Byte) (crc : Word) (c : Instr), Live s →
    (c = .rd64 p h crc ∧ hdrType h = 1 ∧ data = [] ∨ c = .rd256 p h crc ∧ hdrType h = 2 ∧ data = []
      ∨ c = .wr64 p h data crc ∧ hdrType h = 3 ∨ c = .wr256 p h data crc ∧ hdrType h = 4
      ∨ c = .packetCrcError p h data crc ∧ isRequest h = true) →
    (s.d.port p).link = .active → (s.d.port p).skipToPso = false → h.extractLsb' 120 8 ≠ 0 →
    (let f := s.d.port p
     let right := ({ hdr := h, data := data } : Packet).crc
     (crc = right → hdrSeq h = f.rxSeq → protocolKind f h = none →
       (f.ackOwed < 31 → Runs c s (PortBecomes p { f with
          rxSeq := f.rxSeq + 1, nakSent := false, ackOwed := f.ackOwed + 1, rx := f.rx ++ [reqOf h data]
          rxConsumed := f.rxConsumed + BitVec.ofNat 16 (reqOf h []).cost } [] [] s))
       ∧ (31 ≤ f.ackOwed → Runs c s (PortBecomes p { f with
          rxSeq := f.rxSeq + 1, nakSent := false, ackOwed := 0, rx := f.rx ++ [reqOf h data]
          rxConsumed := f.rxConsumed + BitVec.ofNat 16 (reqOf h []).cost } [bare (ackHeader 0xC f.rxSeq)] [] s)))
     ∧ (crc = right → hdrSeq h ≠ f.rxSeq → (f.rxSeq - hdrSeq h).toNat ≤ 2048 → Runs c s (PortBecomes p { f with ackOwed := 0 }
          [bare (ackHeader 0xC (f.rxSeq - 1))] [] s))
     ∧ (crc = right → 2048 < (f.rxSeq - hdrSeq h).toNat →
        (f.nakSent = false → Runs c s (PortBecomes p { f with skipToPso := true, nakSent := true, naksSent := satInc f.naksSent }
          [bare (ackHeader 0xD (f.rxSeq - 1))] [] s))
        ∧ (f.nakSent = true → Runs c s (PortBecomes p { f with skipToPso := true } [] [] s)))
     ∧ (∀ k, crc = right → hdrSeq h = f.rxSeq → protocolKind f h = some k → Runs c s (fun e => (e.port p).link = .retrain ∧ (e.port p).rx = f.rx
          ∧ (e.port p).rxSeq = f.rxSeq + 1
          ∧ Queued 0x0204 (portCode p * 2 ^ 24 + k * 65536 + (hdrStream h).toNat * 256 + (hdrTag h).toNat) e
          ∧ Queued 0x0202 (portCode p * 256 + 3) e ∧ SameBut [.ports] s.d e))
     ∧ (∀ (k : BitVec 128) (bytes : List Byte) (wrong : Word) (c' : Instr), k.extractLsb' 120 8 ≠ 0 → wrong ≠ ({ hdr := k, data := bytes } : Packet).crc →
        (c' = .packetCrcError p k bytes wrong ∨ bytes = [] ∧ (c' = .ack p k wrong ∨ c' = .nak p k wrong ∨ c' = .credit p k wrong)) →
        (let g := { f with crcErrors := satInc f.crcErrors, skipToPso := true }
         (isLinkPacket k = true ∨ f.nakSent = true → Runs c' s (PortBecomes p g [] [] s))
         ∧ (isLinkPacket k = false → f.nakSent = false → Runs c' s (PortBecomes p
            { g with nakSent := true, naksSent := satInc f.naksSent } [bare (ackHeader 0xD (f.rxSeq - 1))] [] s))))
     ∧ (crc ≠ right → f.nakSent = false → Runs c s (PortBecomes p
          { f with crcErrors := satInc f.crcErrors, skipToPso := true, nakSent := true, naksSent := satInc f.naksSent }
          [bare (ackHeader 0xD (f.rxSeq - 1))] [] s)))

/-- R204, R227, R228, R231, R232, R235 to R237 and R251: an ACK frees the packets up to its SEQ; a NAK frees them and begins a replay of the rest with a PSO; a CREDIT sets the
limit; the replay timer begins a replay of everything, and retrains on the fourth episode without progress; the other timers send an ACK of everything accepted and a CREDIT.
Completes (exec answers the next state that each clause describes, under conditions on the state and the operands alone): ack, nak, credit,
replayTimeout, ackTimer, creditTimer. -/
def Obligations.AcknowledgementAndReplay : Prop :=
  ∀ (s : State) (p : Port), Live s → (s.d.port p).link = .active →
    (let f := s.d.port p
     let crcOf := fun (h : BitVec 128) => ({ hdr := h, data := [] } : Packet).crc
     (∀ (n : BitVec 12) (before : List (BitVec 12 × Packet)) (k : Packet) (after : List (BitVec 12 × Packet)), f.skipToPso = false →
        f.replay = before ++ (n, k) :: after → (∀ q ∈ before, q.1 ≠ n) →
        Runs (.ack p (ackHeader 0xC n) (crcOf (ackHeader 0xC n))) s (PortBecomes p
            { f with replay := after, resend := f.resend.filter (fun q => after.contains q), episodes := 0 } [] [] s)
        ∧ Runs (.nak p (ackHeader 0xD n) (crcOf (ackHeader 0xD n))) s (PortBecomes p
            { f with replay := after, resend := after, episodes := 1, replays := satInc f.replays } [fabPso f] [] s))
     ∧ (∀ limit, f.skipToPso = false → Runs (.credit p (creditHeader limit) (crcOf (creditHeader limit))) s
          (PortBecomes p { f with txLimit := limit } [] [] s))
     ∧ (f.replay ≠ [] → f.episodes < 3 → Runs (.replayTimeout p) s (PortBecomes p
          { f with replays := satInc f.replays, episodes := f.episodes + 1, resend := f.replay } [fabPso f] [] s))
     ∧ (f.replay ≠ [] → 3 ≤ f.episodes → Runs (.replayTimeout p) s (fun e =>
          (let k := { anew f .retrain with replays := satInc f.replays, episodes := 0, skipToPso := false, resend := [] }
           PortBecomes p k [fabPso f, fabTb1 k] [] s e ∧ Queued 0x0202 (portCode p * 256) e)))
     ∧ (0 < f.ackOwed → Runs (.ackTimer p) s (PortBecomes p { f with ackOwed := 0 } [bare (ackHeader 0xC (f.rxSeq - 1))] [] s))
     ∧ Runs (.creditTimer p) s (PortBecomes p { f with lastCreditSent := f.rxLimit } [bare (creditHeader f.rxLimit)] [] s))

/-- R217, R219, R223 to R226, R228, R232, R238, R240, R250, R265 and Table 7.8: the request at the head of a port's receive buffer leaves it, its credits returned: refused by the first step that
refuses it, or admitted to its channel's queue; a completion is sent in order and kept for replay.
Completes (exec answers the next state that each clause describes, under conditions on the state and the operands alone): requestAdmit,
completionSend. -/
def Obligations.RequestsAreAdmitted : Prop :=
  ∀ (s : State) (p : Port), Live s → RestoreStays s →
    (let f := s.d.port p
     let c : Instr := match p with | .fa => .requestAdmit true false | .fb => .requestAdmit false true
     (∀ (r : Req) (rest : List Req), f.rx = r :: rest → f.inflight = [] →
       (let left := fabAfter f rest r.cost
        let refused := fun (code : BitVec 4) (others : List Part) (e : Dev) => PortBecomes p left.1 left.2 others s e
          ∧ (e.port p).inflight = [] ∧ (e.port p).cq = f.cq ++ [completionOf r code []]
        (s.d.ctl.hostPath = false → Runs c s (refused 5 []))
        ∧ (s.d.ctl.hostPath = true → s.d.visible < r.base + r.bytes → Runs c s (refused 4 []))
        ∧ (s.d.ctl.hostPath = true → r.base + r.bytes ≤ s.d.visible → rightsIn s.d.attrs r.granule (portRight p (!r.isRead)) = false →
          Runs c s (fun e => refused 1 [.regions] e ∧ e.reg.faultAddr = BitVec.ofNat 40 r.base ∧ e.reg.faultOrigin = BitVec.ofNat 2 (portCode p)
            ∧ e.reg.faultId = r.stream.setWidth 4))
        ∧ (s.d.ctl.mode = .operate → s.d.judge p r = .admitted → (∀ k ∈ s.d.ce, k.job = none) →
          (let n := s.d.channelOf (r.base / 64)
           let m := s.d.chan n
           Runs c s (fun e =>
            PortBecomes p { left.1 with
              reads := if r.isRead then f.reads + 1 else f.reads, writes := if r.isRead then f.writes else f.writes + 1 } left.2 [.channels] s e
            ∧ (e.port p).cq = f.cq
            ∧ (∃ q, (e.port p).inflight = [q] ∧ q.req = r ∧ q.left = r.bursts ∧ q.code = none ∧ q.epoch = s.d.reg.epoch)
            ∧ (∃ es, e.mc = s.d.mc.modify n (fun m => { m with queue := m.queue ++ es, nextId := m.nextId + r.bursts })
                ∧ es.map (fun q => (q.id, q.burst)) = (List.range r.bursts).map (fun k => (m.nextId + k, r.base / 64 + k))
                ∧ ∀ q ∈ es, q.owner = .fabric p 0 ∧ q.who = sourceOf p r))))))
     ∧ (∀ (k : Packet) (rest : List Packet), f.cq = k :: rest → f.inflight = [] →
       (f.resend = [] → fabMaySend f k = true → Runs (.completionSend p) s (fun e =>
          (let out : Packet := { k with hdr := withSeq k.hdr f.txSeq }
           let n := (e.port p)
           n.cq = rest ∧ n.txSeq = f.txSeq + 1 ∧ n.txConsumed = f.txConsumed + BitVec.ofNat 16 (cplCost k)
            ∧ n.replay = f.replay ++ [(f.txSeq, out)] ∧ n.sent.getLast? = some out.wire
            ∧ n.cplRegionFault = (if hdrCode k.hdr = 1 then satInc f.cplRegionFault else f.cplRegionFault)
            ∧ n.cplNotAdmitted = (if hdrCode k.hdr = 5 then satInc f.cplNotAdmitted else f.cplNotAdmitted) ∧ SameBut [.ports] s.d e)))
       ∧ (f.resend = [] → fabMaySend f k = false → Runs (.completionSend p) s (fun e => (e.port p).cq = k :: rest ∧ PortBecomes p f [] [] s e)))
     ∧ (∀ (q : BitVec 12 × Packet) (rest : List (BitVec 12 × Packet)), f.link = .active → f.resend = q :: rest →
         Runs (.completionSend p) s (PortBecomes p { f with resend := rest } [q.2.wire] [] s)))

/-! ### The DRAM channels (chapters 9 and 10) -/

/-- R219, R238, R317 to R319, R322, R331, R360, R368, R407, R441 and R457: a command slot of a channel on which nothing else waits serves the one queued request of a port: its
column command where the row is open, else the command that opens it; a write reaches DRAM and makes its granule dirty, and the last burst decides the completion. With an
empty queue the slot is idle; a rank in a forced refresh goes first.
Completes (exec answers the next state that each clause describes, under conditions on the state and the operands alone): channelCommandSlot. -/
def Obligations.SlotsServeTheQueue : Prop :=
  ∀ (s : State) (c : Fin 4) (inp : SlotInput), Live s → memWf s.d.mem → s.d.ctl.mode = .operate → (s.d.chan c).running = true →
    StoreQuiet s.d → s.d.rst.flight = [] → (∀ k ∈ s.d.ce, k.job = none) → inp.blocked = [] → inp.henBlocked = [] → inp.errors = [] →
    (let m := s.d.chan c
     (∀ rank : Fin 4, m.forced.getD rank false = true → (∀ k < rank, m.forced.getD k false = false) →
       ((∃ o ∈ m.openRows, o.rank = rank.val) → Runs (.channelCommandSlot c inp) s (fun e =>
          (e.chan c).openRows = m.openRows.filter (fun o => o.rank ≠ rank.val) ∧ (e.chan c).queue = m.queue ∧ SameBut [.channels] s.d e))
       ∧ ((∀ o ∈ m.openRows, o.rank ≠ rank.val) → Runs (.channelCommandSlot c inp) s (fun e =>
          (e.chan c).owed = listUpd m.owed rank (fun n => n - 1) ∧ (e.chan c).queue = m.queue ∧ SameBut [.channels, .tasks] s.d e)))
     ∧ ((∀ i, m.forced.getD i false = false) → ∀ rs, m.mr4Wait = some rs → Runs (.channelCommandSlot c inp) s (fun e =>
          (e.chan c).mr4Wait = none ∧ (∀ v, highestMr4 rs = some v → (e.chan c).mr4 = v) ∧ (e.chan c).queue = m.queue ∧ SameBut [.channels] s.d e))
     ∧ ((∀ i, m.forced.getD i false = false) → m.yokeHeld = [] → m.mr4Wait = none →
       (m.queue = [] → (∀ i, m.owed.getD i 0 = 0) → Runs (.channelCommandSlot c inp) s (fun e =>
          e.mc = s.d.mc.modify c (fun m => { m with window := (m.window ++ [0]).drop (m.window.length + 1 - 256) }) ∧ SameBut [.channels] s.d e))
       ∧ (∀ (q : QEntry) (p : Port) (r : FReq), m.queue = [q] → q.owner = .fabric p r.id → q.who < 16 → (s.d.port p).inflight = [r] →
           r.code = none → r.drop = false →
         (let l := s.d.locate (q.burst * 64)
          let key := s.d.xtsKey q.domain q.burst
          let poisoned := r.poisoned || (!r.begun && s.d.poisoned r.req.granule)
          let served := fun (data : List Byte) (e : Dev) => (e.chan c).queue = []
            ∧ (2 ≤ r.left → (e.port p).inflight = [{ r with begun := true, poisoned := poisoned, left := r.left - 1, data := r.data ++ data }])
            ∧ (r.left = 1 → (e.port p).inflight = [] ∧ (e.port p).cq = (s.d.port p).cq
                ++ [completionOf r.req (if poisoned && r.req.isRead then 3 else 0) (r.data ++ data)])
          (m.hit l = true → q.access = .read → Runs (.channelCommandSlot c inp) s (fun e =>
            served (s.d.readUnder key q.burst) e ∧ SameBut [.channels] s.d e))
          ∧ (∀ (mask : BitVec 64) (data : List Byte), m.hit l = true → q.access = .write mask data → mask ≠ 0 →
              (mask = BitVec.allOnes 64 ∨ s.d.tagOf q.burst = some key ∨ s.d.tagOf q.burst = none) →
            Runs (.channelCommandSlot c inp) s (fun e => served [] e
              ∧ (∀ a, memRead e.mem a = if a / 64 = q.burst ∧ mask.getLsbD (a % 64) = true then data.getD (a % 64) 0 else memRead s.d.mem a)
              ∧ (e.entry (q.burst / 1024)).dirty = true ∧ e.tagOf q.burst = some key ∧ SameBut [.channels, .dram, .cipher] s.d e))
          ∧ (∀ o, m.rowAt l = some o → o.row ≠ l.row → Runs (.channelCommandSlot c inp) s (fun e =>
              (e.chan c).openRows = m.openRows.filter (fun k => k ≠ o) ∧ (e.chan c).queue = [q] ∧ SameBut [.channels] s.d e))
          ∧ (m.rowAt l = none → (l.rank, l.bg, l.bank) ∉ m.coinOwed → m.raaNeed l.rank l.bg l.bank = true → Runs (.channelCommandSlot c inp) s (fun e =>
              (e.chan c).rfmIssued = m.rfmIssued ∧ (e.chan c).openRows = m.openRows ∧ (e.chan c).queue = [q] ∧ SameBut [.channels] s.d e))
          ∧ (m.rowAt l = none → (l.rank, l.bg, l.bank) ∉ m.coinOwed → m.raaNeed l.rank l.bg l.bank = false → Runs (.channelCommandSlot c inp) s (fun e =>
              (e.chan c).openRows = m.openRows ++ [{ rank := l.rank, bg := l.bg, bank := l.bank, row := l.row, run := 0 }]
              ∧ (e.chan c).queue = [q] ∧ SameBut [.channels] s.d e))
          ∧ (m.rowAt l = none → (l.rank, l.bg, l.bank) ∈ m.coinOwed → Runs (.channelCommandSlot c inp) s (fun e =>
              (e.chan c).rfmIssued = m.rfmIssued + 1 ∧ (e.chan c).coinOwed = m.coinOwed.filter (fun k => k ≠ (l.rank, l.bg, l.bank))
              ∧ (e.chan c).openRows = m.openRows ∧ (e.chan c).queue = [q] ∧ SameBut [.channels] s.d e))))))

/-- R324, R328, R329, R331, R332, R335 to R338, R362, R372, R377 and R383: refresh units become owed; MR4 sets the refresh rate and the over-temperature state; an idle row
closes; a YOKE window ends; a parity error freezes its channel, and with one frozen already brings SAFEHOLD; a capture goes to the keeper area.
Completes (exec answers the next state that each clause describes, under conditions on the state and the operands alone): refreshTick, mr4Poll,
rowIdleClose, yokeWindowEnd, alertNParity, captureKeeperCopy. -/
def Obligations.ChannelsAreKept : Prop :=
  ∀ (s : State) (c : Fin 4), Live s → RestoreStays s →
    (let m := s.d.chan c
     (m.used = true → m.offline = false →
       (m.selfRefresh = false → 3 ≤ m.stage → ∀ rank ≤ m.ranks.toNat,
         (let n := m.owed.getD rank 0 + 1
          Runs (.refreshTick c rank) s (fun e =>
            e.mc = s.d.mc.modify c (fun k => { k with
              owed := k.owed.set rank n
              overdue := if (if s.d.ctl.mode = .save then 4 else 8) < n then listUpd k.overdue rank (fun i => i + 1) else k.overdue
              forced := if (if s.d.ctl.mode = .save then 3 else 6) ≤ n then k.forced.set rank true else k.forced })
            ∧ (n ≤ (if s.d.ctl.mode = .save then 4 else 8) → SameBut [.channels] s.d e)
            ∧ ((if s.d.ctl.mode = .save then 4 else 8) < n → SameBut [.channels, .tasks] s.d e
                ∧ ((s.d.task c).behind = false → Queued 0x0150 c e)))))
       ∧ (∀ rs, 2 ≤ m.stage → (m.selfRefresh = true ∨ m.retraining = true ∨ ∃ b ∈ m.forced, b = true) → Runs (.mr4Poll c rs) s (fun e =>
            e.mc = s.d.mc.modify c (fun k => { k with mr4Wait := some rs }) ∧ SameBut [.channels] s.d e))
       ∧ (∀ (v : Byte) (hot : Bool), 2 ≤ m.stage → m.selfRefresh = false → m.retraining = false → (∀ b ∈ m.forced, b = false) →
         (Runs (.mr4Poll c [(v, true, hot)]) s (fun e => (e.chan c).mr4 = v ∧ (e.chan c).refresh2x = true ∧ (e.chan c).mr4Clean = 0
            ∧ (m.refresh2x = false → Queued 0x0802 (c * 256 + 1) e) ∧ (e.chan c).overTemp = hot
            ∧ (hot = true → Queued 0x0803 (c * 256 + v.toNat) e)
            ∧ (hot = false → m.overTemp = true → Queued 0x0804 c e) ∧ SameBut [.channels] s.d e))
         ∧ (m.refresh2x = true → 1 ≤ m.mr4Clean → Runs (.mr4Poll c [(v, false, hot)]) s (fun e => (e.chan c).refresh2x = false
            ∧ Queued 0x0802 (c * 256) e ∧ SameBut [.channels] s.d e))
         ∧ (m.refresh2x = true → m.mr4Clean = 0 → Runs (.mr4Poll c [(v, false, hot)]) s (fun e => (e.chan c).refresh2x = true
            ∧ (e.chan c).mr4Clean = 1 ∧ SameBut [.channels] s.d e)))
       ∧ (∀ rank : Fin 4, s.d.ctl.mode ∈ [.operate, .restore, .safehold] → 2 ≤ m.stage →
         ((∀ k ∈ s.d.mc, k.frozen = false) → Runs (.alertNParity c rank) s (fun e =>
            (e.chan c).frozen = true ∧ (e.chan c).freezeKind = 2 ∧ (e.chan c).captureValid = true ∧ (e.chan c).freezes = satInc m.freezes
            ∧ Queued 0x0805 (c * 256 + rank) e ∧ Queued 0x0814 (c * 256 + 2) e ∧ SameBut [.engines, .channels] s.d e))
         ∧ ((∃ k ∈ s.d.mc, k.frozen = true) → s.d.ctl.mode ≠ .safehold → Runs (.alertNParity c rank) s (fun e =>
            heldFor 4 e ∧ e.ctl.returnMode = s.d.ctl.mode ∧ (e.chan c).frozen = true))))
     ∧ (∀ o ∈ m.openRows, m.queue = [] → Runs (.rowIdleClose c o.rank o.bg o.bank) s (fun e =>
          (e.chan c).openRows = m.openRows.filter (fun k => !(k.rank = o.rank && k.bg = o.bg && k.bank = o.bank)) ∧ SameBut [.channels] s.d e))
     ∧ (m.stage = 7 → Runs (.yokeWindowEnd c) s (fun e =>
          e.mc = s.d.mc.modify c (fun k => { k with yokeOn := k.yokeEn, yokeThreshNow := k.yokeThresh, yokeCounts := [], yokeHeld := [] })
          ∧ SameBut [.channels] s.d e))
     ∧ (m.captureToCopy = true → s.d.img.deferred = false → Runs (.captureKeeperCopy c) s (fun e =>
          e.mc = s.d.mc.modify c (fun k => { k with keeperCapture := k.capture, captureToCopy := false }) ∧ SameBut [.channels] s.d e)))

/-- R27, R343, R344, R347, R350 to R359, R372, R386, R555 and R585: a retraining pass starts with its first pause; a pause that measures both eyes at 8 steps or more moves its lane's
delays toward the new centres; a lane that is lost freezes the channel, and so does a save read that is uncorrectable, which leaves the lane as it was. The retraining of an entry to
OPERATE opens the path, or ends in SAFEHOLD. Full training replaces both points, keeps both, brings an offline channel online, or leaves it offline.
Completes (exec answers the next state that each clause describes, under conditions on the state and the operands alone): retrainPassStart,
retrainPauseStart, retrainPauseDone, entryRetrainDone, fullTrainDone. -/
def Obligations.TrainingIsTaken : Prop :=
  ∀ (s : State) (c : Fin 4), Live s → RestoreStays s →
    (let m := s.d.chan c
     (s.d.ctl.mode ∈ [.operate, .restore] →
       (m.used = true → m.offline = false → m.fullTrain = false →
         (m.retrainEn = true → m.pass = none → Runs (.retrainPassStart c) s (fun e =>
            e.mc = s.d.mc.modify c (fun k => { k with
              pass := some { lane := 0, inPause := false, cause := 0, low := false, lost := false } }) ∧ SameBut [.channels] s.d e))
         ∧ (m.retrainEn = true → (∃ p, m.pass = some p ∧ p.cause ≠ 0) → Runs (.retrainPassStart c) s (fun e =>
            e.mc = s.d.mc ∧ SameBut [.tasks] s.d e))
         ∧ (∀ p, m.running = true → m.pass = some p → p.inPause = false → (∀ n ∈ m.owed, n = 0) → Runs (.retrainPauseStart c) s (fun e =>
            (e.chan c).retraining = true ∧ (e.chan c).openRows = [] ∧ (e.chan c).coinOwed = [] ∧ (e.chan c).pass = some { p with inPause := true }
            ∧ (e.chan c).passTemp = (if p.lane = 0 then s.d.therm.tDie else m.passTemp)
            ∧ (e.chan c).queue = m.queue ∧ (p.cause ≠ 0 ∨ p.lane ≠ 0 → SameBut [.channels] s.d e) ∧ SameBut [.channels, .tasks] s.d e)))
       ∧ (∀ (p : Pass) (r : PauseResult), m.pass = some p → p.inPause = true →
         (let eyes := m.pauseEyes p.lane r
          let low := p.low || lowEye eyes.1 || lowEye eyes.2
          ((∀ k ∈ r.saves, k.errors = []) → lostEye eyes.1 = false → lostEye eyes.2 = false → p.lane ≤ 4 → Runs (.retrainPauseDone c r) s (fun e =>
            (e.chan c).retraining = false ∧ (e.chan c).train = (m.pauseLane p.lane r).train ∧ (e.chan c).edges = (m.pauseLane p.lane r).edges
            ∧ (p.lane < 4 → (e.chan c).pass = some { p with inPause := false, lane := p.lane + 1, low := low })
            ∧ (p.lane = 4 → m.passAsked = false → (e.chan c).pass = none ∧ (e.chan c).retrains = satInc m.retrains
                ∧ (p.cause = 2 → p.lost = false → Queued 0x0810 (c * 65536 + (if low then 1 else 0)) e))
            ∧ (∀ w, widthOf eyes.1 = some w → w < 32 → Queued 0x0811 (c * 2 ^ 32 + p.lane * 2 ^ 24 + w) e)
            ∧ (∀ w, widthOf eyes.2 = some w → w < 32 → Queued 0x0811 (c * 2 ^ 32 + p.lane * 2 ^ 24 + 256 + w) e) ∧ SameBut [.channels] s.d e))
          ∧ ((∀ k ∈ r.saves, k.errors = []) → (lostEye eyes.1 = true ∨ lostEye eyes.2 = true) → m.frozen = false →
            Runs (.retrainPauseDone c r) s (fun e => (e.chan c).frozen = true ∧ (e.chan c).freezeKind = 3 ∧ (e.chan c).retraining = false
              ∧ Queued 0x0814 (c * 256 + 3) e ∧ SameBut [.engines, .channels] s.d e))
          ∧ (r.saves.any (s.d.saveBad c) = true → Runs (.retrainPauseDone c r) s (fun e =>
              (e.chan c).frozen = true ∧ (e.chan c).retraining = false ∧ (e.chan c).train = m.train ∧ (e.chan c).edges = m.edges)))))
     ∧ (∀ (sweeps : List (List LaneSweep)) (saves : List (List SaveRead)), s.d.ctl.mode = .operate →
         (∃ tag, s.d.ctl.entry = some (.modeRequest tag)) → s.d.ctl.entrySwitching = false → s.d.clk.switching = false →
         (∀ k ∈ s.d.mc, k.fullTrain = false) → s.d.ctl.retrainFailed = false → (∀ l ∈ saves, ∀ k ∈ l, k.errors = []) →
       (let good := fun (n : Fin 4) => pointValid ((s.d.chan n).retrain (sweeps.getD n [])).train 0
        ((∀ n : Fin 4, (s.d.chan n).used = true → (s.d.chan n).offline = false → good n = true) → Runs (.entryRetrainDone sweeps saves) s (fun e =>
          e.ctl = { s.d.ctl with entry := none, entrySwitching := false, hostPath := true, pathOpened := true } ∧ Queued 0x0103 0 e
          ∧ (m.used = true → m.offline = false → (e.chan c).onPoint1 = false ∧ (e.chan c).train = (m.retrain (sweeps.getD c [])).train
              ∧ (e.chan c).retrains = satInc m.retrains)
          ∧ SameBut [.mode, .channels, .tasks] s.d e))
        ∧ (m.used = true → m.offline = false → good c = false → Runs (.entryRetrainDone sweeps saves) s (fun e =>
          heldFor 1 e ∧ e.ctl.retrainFailed = true ∧ e.ctl.hostPath = false ∧ (e.chan c).onPoint1 = true ∧ Queued 0x0810 (c * 65536 + 0x202) e))))
     ∧ (m.fullTrain = true →
       (∀ (w1 w0 : PointSweep) (saves : List SaveRead), m.offline = false → m.pass = none → s.d.chunkOn c = false → s.d.ctl.retrainFailed = false →
         (∀ k ∈ saves, k.errors = []) →
         (let k1 := m.trainPoint 1 w1
          let k0 := k1.trainPoint 0 w0
          (pointValid k1.train 1 = true → pointValid k0.train 0 = true →
            Runs (.fullTrainDone c [.trainSave w1, .trainOperate w0] saves) s (fun e =>
              (e.chan c).fullTrain = false ∧ (e.chan c).train = k0.train ∧ (e.chan c).trainedSinceFreeze = true ∧ (e.chan c).untrained = false
              ∧ (e.chan c).passTemp = s.d.therm.tDie ∧ Queued 0x0810 (c * 65536 + 256) e ∧ SameBut [.channels, .tasks] s.d e))
          ∧ (pointValid k1.train 1 = false ∨ pointValid k0.train 0 = false →
            Runs (.fullTrainDone c [.trainSave w1, .trainOperate w0] saves) s (fun e =>
              (e.chan c).fullTrain = false ∧ (e.chan c).train = m.train ∧ Queued 0x0810 (c * 65536 + 258) e ∧ SameBut [.channels, .tasks] s.d e))))
       ∧ (∀ (outcomes : List DramOutcome) (saves : List SaveRead) (k : Mc), m.offline = true →
         (∃ n : Fin 4, (s.d.chan n).used = true ∧ (s.d.chan n).offline = false) →
         (let run := fullRun 6 s.d.therm.tDie outcomes { m with stage := 2, point1Done := false, ranks := 0, density := 0 }
          (run = some (true, k) → s.d.dcfg.reference ≠ none → k.ranks = s.d.dcfg.refRanks → k.density = s.d.dcfg.refDensity →
            tableOk k s.d.dcfg.opRate = true → Runs (.fullTrainDone c outcomes saves) s (fun e =>
              (e.chan c).offline = false ∧ (e.chan c).trained = true ∧ (e.chan c).train = k.train ∧ (e.chan c).fullTrain = false
              ∧ (e.chan c).ranks = k.ranks ∧ (e.chan c).density = k.density ∧ Queued 0x0810 (c * 65536 + 256) e
              ∧ SameBut [.mode, .channels, .image] s.d e))
          ∧ (run = some (false, k) → Runs (.fullTrainDone c outcomes saves) s (fun e => (e.chan c).offline = true ∧ (e.chan c).fullTrain = false
              ∧ (e.chan c).ranks = k.ranks ∧ (e.chan c).density = k.density ∧ Queued 0x0801 (c * 256 + k.stage) e
              ∧ Queued 0x0810 (c * 65536 + 258) e ∧ SameBut [.channels] s.d e))))))

/-! ### The image store and the keys (chapters 11 and 12) -/

/-- R391, R399, R406, R408, R412 to R415, R417, R419 and Table 11.6: the rows that start work on flash.
Completes (exec answers the next state that each clause describes, under conditions on the state and the operands alone): dirtyRecount, trickleStart,
periodicCommitDue, recordSetTimer, dayRollover, gcRelocateStart, scrubPassStart. -/
def Obligations.StoreWorkStarts : Prop :=
  ∀ s : State, Live s →
    Runs .dirtyRecount s (fun e => e.reg = { s.d.reg with countBy := s.d.attrs, reported := e.reg.reported } ∧ SameBut [.regions] s.d e)
    ∧ (s.d.ctl.mode = .operate → s.d.awaits = false → s.d.img.trickleEn = true → s.d.trickleBlocked = false → s.d.lifeSpent = false →
        s.d.img.usedMib < s.d.img.allowDayMib.toNat → Runs .trickleStart s (fun e =>
          Becomes s ((s.d.taskStart 8).startTrickle) e ∧ (s.d.taskStart 8).startTrickle.img.batch.length ≤ s.d.img.tokens / 86400000
          ∧ SameBut [.image, .tasks] s.d e))
    ∧ (s.d.ctl.mode = .operate → s.d.canWrite = true → s.d.awaits = false → s.d.img.changed = true → s.d.img.commit = none →
        s.d.img.lastCommitMs + 60000 ≤ s.d.ctl.uptimeMs → s.d.shutting = false → Runs .periodicCommitDue s (fun e =>
          Becomes s (s.d.askCommit 0) e ∧ SameBut [] s.d e))
    ∧ (s.d.ctl.mode = .safehold → s.d.mayRecord = true → s.d.recordsRunning = false → (s.d.ringLost true = false ∨ s.d.ringLost false = false) →
        s.d.img.relocs = [] → Runs .recordSetTimer s (fun e =>
          e.img.ops = s.d.img.ops ++ [(s.d.img.nextOp, .records s.d.recordNow)] ∧ e.img.recordDue = false
          ∧ e.img.records = s.d.img.records.set s.d.recordHalf none ∧ SameBut [.image] s.d e))
    ∧ Runs .dayRollover s (fun e => e.img.serviceDays = satInc s.d.img.serviceDays ∧ e.img.usedPages = 0 ∧ e.img.ratedInUse = s.d.img.ratedCycles
        ∧ e.img.allowDayMib = satBits 32 (allowanceMib s.d.logSlots s.d.img.ratedCycles.toNat s.d.img.lifePages
            (satInc s.d.img.serviceDays).toNat s.d.therm.hist)
        ∧ (s.d.img.throttled = true → Queued 0x0C05 0 e) ∧ SameBut [.image] s.d e)
    ∧ (∀ v, s.d.mayCollect = true → s.d.img.gcVictim = none → s.d.gcChoice = some v → Runs .gcRelocateStart s (fun e =>
          Becomes s (({ s.d with img := { s.d.img with gcVictim := some v } }).relocate v true) e
          ∧ e.img.gcVictim = some v ∧ SameBut [.image] s.d e))
    ∧ (s.d.ctl.mode = .safehold → s.d.img.usable = true → s.d.img.deferred = false → s.d.img.scrub = none → s.d.shutting = false →
        (∀ a rest, s.d.scrubList = a :: rest → s.d.onLost a = false → s.d.img.relocs = [] → Runs .scrubPassStart s (fun e =>
          e.img.scrub = some { left := rest, relocated := 0 } ∧ e.img.lastScrubMs = s.d.ctl.uptimeMs
          ∧ e.img.ops = s.d.img.ops ++ [(s.d.img.nextOp, .scrubRead a)] ∧ SameBut [.image, .tasks] s.d e))
        ∧ (s.d.scrubList = [] → Runs .scrubPassStart s (fun e =>
          e.img.scrub = none ∧ e.img.scrubPasses = satInc s.d.img.scrubPasses ∧ Queued 0x0C07 ((satInc s.d.img.scrubPasses).toNat * 2 ^ 32) e
          ∧ SameBut [.image, .tasks] s.d e)))

/-- R394, R397, R399, R409, R417, R419, R420, R570, R578 and R661: what the end of a program, an erase or a read does: the working entry names the copy, or its block group is retired; an
erased group is free; a read of a restore gives the granule its data; the last read of a scrub pass ends it; a lost target is marked.
Completes (exec answers the next state that each clause describes, under conditions on the state and the operands alone): flashProgramDone,
flashEraseDone, flashReadDone, flashTargetLost. -/
def Obligations.FlashReportsAreTaken : Prop :=
  ∀ s : State, Live s →
    (∀ k : Copy, s.d.ctl.mode = .safehold → s.d.img.copies = [k] → k.job = none → k.copyGen ≠ 0 → k.purpose = 0 → s.d.sav.abandoned = false →
        s.d.img.relocs = [] →
      Runs (.flashProgramDone k.id true) s (fun e => e.img.copies = []
        ∧ e.entry k.granule = { st := 1, taint := k.taint, dirty := (s.d.entry k.granule).dirty, stale := false
                                genLo := BitVec.ofNat 24 k.copyGen, slot := k.slot }
        ∧ e.img.slots = s.d.img.slots ++ [{ addr := k.slot, kind := 1, index := k.granule, copyGen := k.copyGen, keyGen := k.keyGen
                                            taint := k.taint, data := k.data, parts := [], key := sealKey (s.d.imkFor k.keyGen) }]
        ∧ SameBut [.image] s.d e)
      ∧ ((groupOf s.d.img.geom k.slot) ∉ s.d.img.retired → s.d.onLost (groupOf s.d.img.geom k.slot) = false → Runs (.flashProgramDone k.id false) s (fun e =>
        e.img.retired = s.d.img.retired ++ [groupOf s.d.img.geom k.slot]
        ∧ e.img.badBlocks = satBits 16 (s.d.img.badBlocks.toNat + s.d.img.geom.planes)
        ∧ Queued 0x0C03 ((groupOf s.d.img.geom k.slot).toNat * 256) e ∧ e.img.slots = s.d.img.slots ∧ SameBut [.image] s.d e)))
    ∧ (∀ g ∈ s.d.img.erases,
      Runs (.flashEraseDone g true) s (fun e =>
        e.img.slots = s.d.img.slots.filter (fun x => groupOf s.d.img.geom x.addr ≠ g) ∧ e.img.blockCycles = bumpCycles s.d.img.blockCycles g
        ∧ (s.d.img.gcVictim = some g → e.img.gcRuns = satInc s.d.img.gcRuns ∧ e.img.gcVictim = none) ∧ SameBut [.image] s.d e)
      ∧ (g ∉ s.d.img.retired → s.d.onLost g = false → Runs (.flashEraseDone g false) s (fun e =>
        e.img.slots = s.d.img.slots ∧ e.img.retired = s.d.img.retired ++ [g] ∧ Queued 0x0C03 (g.toNat * 256 + 1) e ∧ SameBut [.image] s.d e)))
    ∧ (∀ (op r : Nat) (a : Word) (reads : List WordRead) (altered : List SectorRead), s.d.ctl.mode = .safehold → s.d.img.ops = [(op, .scrubRead a)] →
        s.d.img.scrub = some { left := [], relocated := r } → s.d.img.relocs = [] → badSectors s.d.img.geom a reads = [] →
        needsMove s.d.img.geom reads = false →
      Runs (.flashReadDone op reads altered) s (fun e => e.img.ops = [] ∧ e.img.scrub = none ∧ e.img.scrubPasses = satInc s.d.img.scrubPasses
        ∧ e.img.bchCorrected = (s.d.countWords reads).img.bchCorrected ∧ e.img.bchUncorrectable = (s.d.countWords reads).img.bchUncorrectable
        ∧ Queued 0x0C07 ((satInc s.d.img.scrubPasses).toNat * 2 ^ 32 + (satBits 32 r).toNat) e ∧ SameBut [.image] s.d e))
    ∧ (∀ (op g t : Nat) (reads : List WordRead) (altered : List SectorRead), s.d.ctl.mode = .restore → s.d.img.ops = [(op, .restoreRead g t)] →
        g ∈ s.d.rst.unrestored → badSectors s.d.img.geom (s.d.entry g).slot reads = [] →
      Runs (.flashReadDone op reads altered) s (fun e =>
        ∃ r ∈ e.rst.flight, r.granule = g ∧ r.tainted = (s.d.entry g).taint ∧ r.begun = false
          ∧ r.forged = s.d.forgedIn (s.d.entry g).slot altered
          ∧ r.data = (s.d.readPlain (s.d.entry g).slot altered (s.d.slotData (s.d.entry g).slot)).filter (fun k => k.2 ≠ 0)))
    ∧ (∀ (y : Fin 8) (t : Fin 4), s.d.img.targetMap.getLsbD (4 * y + t) = true → s.d.img.lost.getLsbD (4 * y + t) = false →
        s.d.img.copies = [] → s.d.img.ops = [] → Runs (.flashTargetLost y t) s (fun e =>
          e.img.lost = s.d.img.lost ||| BitVec.ofNat 32 (2 ^ (4 * y.val + t.val)) ∧ Queued 0x0C08 (y * 256 + t) e ∧ SameBut [.image] s.d e))

/-- R445, R448, R450, R454 to R456 and R462: Goat takes a domain under a new key and walks its units; the walk of the image passes a granule with no copy; a verdict ends its wait, and a failed
or late one is counted and reported; a faulty entropy source is latched; the end of BIND binds the image, or says why not.
Completes (exec answers the next state that each clause describes, under conditions on the state and the operands alone): goatUnitStart,
goatGranuleStart, sectorVerdict, verdictTimeout, trngFault, bindDone. -/
def Obligations.GoatAndVerdicts : Prop :=
  ∀ s : State, Live s → RestoreStays s →
    (∀ (k : Fin 8) (rest : List Nat), k ≠ 0 → s.d.ctl.mode = .operate → s.d.shutting = false → s.d.cip.goatQueue = k.val :: rest →
      (let job := fun (u : Nat) => some { reads := [], writes := granuleBursts u, queued := 0, buffer := [], stopped := false, tainted := false }
       (s.d.cip.goat = none → s.d.cip.trngFault = false → s.d.granuleBlocked 0 = false → (domainIn s.d.attrs 0).toNat = k →
          Runs .goatUnitStart s (fun e => Becomes s { s.d with
              free := s.d.free + 1
              cip := { s.d.cip with
                domOld := s.d.cip.domOld.set (k - 1) (s.d.cip.domKey.getD (k - 1) 0), domKey := s.d.cip.domKey.set (k - 1) (s.d.free + 1)
                boundary := s.d.cip.boundary.set (k - 1) 0
                goat := some { target := k, job := job 0, doneBursts := [], finishing := false } } } e
            ∧ SameBut [.cipher] s.d e))
       ∧ (∀ g : Goat, s.d.cip.goat = some g → g.job = none →
          (let u := s.d.cip.boundary.getD (k - 1) 0
           s.d.granuleBlocked u.toNat = false →
           ((domainIn s.d.attrs u.toNat).toNat = k → Runs .goatUnitStart s (fun e => Becomes s { s.d with
              cip := { s.d.cip with goat := some { target := k, job := job u.toNat, doneBursts := [], finishing := false } } } e
              ∧ SameBut [] s.d e))
           ∧ ((domainIn s.d.attrs u.toNat).toNat ≠ k → (u + 1).toNat < s.d.dcfg.granules.toNat → Runs .goatUnitStart s (fun e =>
              e.cip.boundary = s.d.cip.boundary.set (k - 1) (u + 1) ∧ e.cip.domOld = s.d.cip.domOld ∧ SameBut [.cipher] s.d e))))))
    ∧ (s.d.cip.goatQueue.head? = some 0 → s.d.ctl.mode = .operate → s.d.canWrite = true → s.d.awaits = false → s.d.shutting = false →
        s.d.cip.imageBoundary.toNat < s.d.dcfg.granules.toNat → s.d.goatReading = false → s.d.oldKeyed s.d.cip.imageBoundary.toNat = false →
        (∀ k ∈ s.d.img.copies, k.granule ≠ s.d.cip.imageBoundary.toNat) → Runs .goatGranuleStart s (fun e =>
          e.cip.imageBoundary = s.d.cip.imageBoundary + 1 ∧ SameBut [.cipher] s.d e))
    ∧ (∀ (g : Nat) (n : Fin 16) (t : BitVec 16), g < 2 ^ 32 → ∀ v, s.d.rst.verdicts.find? (fun v => v.granule = g && v.sector = n.val) = some v →
      (let left := s.d.rst.verdicts.filter (fun v => !(v.granule = g && v.sector = n.val))
       let worst := if s.d.cip.alarmWorst < t then t else s.d.cip.alarmWorst
       (v.pass = true → Runs (.sectorVerdict g n t) s (fun e => e.rst.verdicts = left ∧ e.cip.alarmWorst = worst
          ∧ e.cip.lateAuthFails = s.d.cip.lateAuthFails ∧ SameBut [.cipher, .restoring] s.d e))
       ∧ (v.pass = false → Runs (.sectorVerdict g n t) s (fun e => e.rst.verdicts = left ∧ e.cip.alarmWorst = worst
          ∧ e.cip.lateAuthFails = satInc s.d.cip.lateAuthFails ∧ Queued 0x0D06 (g * 65536 + n * 256 + 1) e ∧ SameBut [.cipher, .restoring] s.d e))
       ∧ Runs (.verdictTimeout g n) s (fun e => e.rst.verdicts = left ∧ e.cip.alarmWorst = s.d.cip.alarmWorst
          ∧ e.cip.lateAuthFails = satInc s.d.cip.lateAuthFails ∧ Queued 0x0D06 (g * 65536 + n * 256 + 1) e ∧ Queued 0x0D0A (g * 256 + n) e
          ∧ SameBut [.cipher, .restoring] s.d e)))
    ∧ (∀ test : Bool, s.d.cip.trngFault = false → Runs (.trngFault test) s (fun e =>
        e.cip.trngFault = true ∧ Queued 0x0D09 (if test then 1 else 0) e ∧ SameBut [.cipher] s.d e))
    ∧ (∀ (tag : BitVec 6) (key : BitVec 256) (rest : List (BitVec 6 × BitVec 256)) (h : Header) (entries : Option (List (Nat × BitVec 64)))
        (reads : List WordRead) (altered : List SectorRead), s.d.cip.binding = (tag, key) :: rest → s.d.img.candidate = some h →
      (let ends := fun (q : Dev → Prop) => Runs (.bindDone entries reads altered) s (fun e => e.cip.binding = rest ∧ q e)
       let taken := ({ s.d with cip := { s.d.cip with binding := rest } }).countWords reads
       (s.d.img.state ≠ 2 → ends (fun e => e.cip.bound = s.d.cip.bound ∧ Queued 0x0D05 (0x4300 + tag.toNat) e ∧ SameBut [.cipher] s.d e))
       ∧ (s.d.img.state = 2 →
         (openWrap key h.wrapEsc = none → ends (fun e => e.cip.bound = s.d.cip.bound ∧ Queued 0x0D04 1 e ∧ SameBut [.cipher] s.d e))
         ∧ (∀ new old : BitVec 256, openWrap key h.wrapEsc = some (new, old) →
           (let keys : Option ImageKeys := some { imk := new, gen := h.keyGen, imkOld := old, oldGen := h.oldKeyGen }
            (headerAuth new h ≠ h.auth → ends (fun e => e.cip.bound = s.d.cip.bound ∧ Queued 0x0D04 2 e ∧ SameBut [.cipher] s.d e))
            ∧ (headerAuth new h = h.auth → taken.mapReads keys reads altered = false → ends (fun e =>
                e.cip.bound = s.d.cip.bound ∧ Queued 0x0D04 3 e ∧ SameBut [.image, .cipher] s.d e))
            ∧ (headerAuth new h = h.auth → taken.mapReads keys reads altered = true → ends (fun e =>
                e.img.state = 1 ∧ e.cip.bound = true ∧ e.cip.escrow = some key ∧ e.cip.imk = new ∧ e.cip.imkOld = old ∧ e.cip.imkGen = h.keyGen
                ∧ Queued 0x0D00 (checkValue key).toNat e ∧ Queued 0x0D04 0 e ∧ SameBut [.image, .cipher] s.d e)))))))

/-! ### The herd and Rooster (chapters 14 and 17) -/

/-- R510, R512 to R515, R518 to R520, R524 to R526 and R530: a qualified fall, or the line held high, steps a joined device once in each high period; the grab and the hold end; the arm timer of an ARMED device
enters CUT; a stall follows its policy, and its end is reported; a line fault leaves the herd.
Completes (exec answers the next state that each clause describes, under conditions on the state and the operands alone): herdLineFall,
herdSettleExpire, herdGrabExpire, herdHoldExpire, herdArmExpire, herdStall, herdLineRise, herdLineFault. -/
def Obligations.HerdLineStepsTheDevice : Prop :=
  ∀ s : State, Live s → RestoreStays s →
    (let h := s.d.herd
     let a := h.addr.toNat
     let step := fun (line stalled : Bool) (e : Dev) =>
       e.herd = { h with
         st := h.st + 1, steps := h.steps + 1, counted := true, grabDue := h.st + 1 ≠ 7, holdRunning := false, line := line, stalled := stalled
         pulling := e.herd.pulling }
       ∧ (h.st + 1 = 7 → Queued 0x0F02 a e) ∧ (h.st + 1 = 9 → Queued 0x0F04 a e)
       ∧ (h.waitFor = some (h.st + 1) → SeqInput.herdStep ∈ e.rail.pending)
       ∧ (h.waitFor ≠ some (h.st + 1) → SameBut [.herd] s.d e) ∧ SameBut [.herd, .rails] s.d e
     (h.joined = true → h.st ≠ 7 → h.counted = false → h.line = true → Runs .herdLineFall s (step false false) ∧ Runs .herdSettleExpire s (step true h.stalled))
     ∧ (h.joined = true → h.grabDue = true → Runs .herdGrabExpire s (fun e =>
          e.herd = { h with grabDue := false, holdRunning := true, pulling := e.herd.pulling } ∧ (h.st ≠ 7 → e.herd.pulling = true)
          ∧ SameBut [.herd] s.d e))
     ∧ Runs .herdHoldExpire s (fun e => e.herd = { h with holdRunning := false, pulling := e.herd.pulling } ∧ SameBut [.herd] s.d e)
     ∧ (h.joined = true → h.st = 7 →
        (s.d.ctl.saveArmed = false → Runs .herdArmExpire s (fun e =>
          e.herd = { h with st := 8, steps := h.steps + 1, line := false, grabDue := true, holdRunning := false, pulling := false }
          ∧ Queued 0x0F03 0 e ∧ SameBut [.herd] s.d e))
        ∧ (s.d.ctl.saveArmed = true → s.d.ctl.mode ∈ [.operate, .restore, .safehold] → Runs .herdArmExpire s (fun e =>
          e.ctl.mode = .save ∧ e.ctl.lastTrigger = 4 ∧ e.herd.st = 8 ∧ Queued 0x0F03 0 e)))
     ∧ (∀ t, h.joined = true → h.line = false → h.stalled = false → h.waitFor = some t →
        (h.policy = 0 → s.d.ctl.mode = .startup → Runs .herdStall s (fun e =>
          e.herd = { h with stalled := true, stalls := satInc h.stalls, pulling := e.herd.pulling }
          ∧ e.ctl = { s.d.ctl with safeholdCauses := s.d.ctl.safeholdCauses ||| 0x20 } ∧ Queued 0x0F05 (h.st.toNat * 256) e
          ∧ SameBut [.mode, .herd] s.d e))
        ∧ (h.policy = 1 → Runs .herdStall s (fun e => e.herd.joined = false ∧ e.herd.st = t ∧ e.herd.pulling = false ∧ e.herd.stalls = satInc h.stalls
          ∧ e.herd.lastStallLen = h.tStall ∧ e.herd.lastStallState = h.st ∧ SeqInput.herdStep ∈ e.rail.pending
          ∧ Queued 0x0F05 (h.st.toNat * 256 + 1) e ∧ Queued 0x0F01 (a * 256 + 1) e ∧ Queued 0x0F06 (h.st.toNat * 65536 + h.tStall.toNat) e
          ∧ SameBut [.rails, .herd] s.d e))
        ∧ (h.policy = 2 → Runs .herdStall s (fun e =>
          e.herd = { h with stalled := true, stalls := satInc h.stalls, pulling := e.herd.pulling } ∧ Queued 0x0F05 (h.st.toNat * 256 + 2) e
          ∧ SameBut [.herd] s.d e)))
     ∧ (∀ n : Nat, h.joined = true → h.stalled = true → Runs (.herdLineRise n) s (fun e =>
          e.herd.line = true ∧ e.herd.stalled = false ∧ e.herd.lastStallLen = satBits 16 n ∧ e.herd.lastStallState = h.st ∧ e.herd.joined = true
          ∧ Queued 0x0F06 (h.st.toNat * 65536 + (satBits 16 n).toNat) e ∧ SameBut [.herd] s.d e))
     ∧ (∀ n : Nat, h.stalled = false → Runs (.herdLineRise n) s (fun e =>
          e.herd = { h with line := true, counted := h.line && h.counted, pulling := e.herd.pulling } ∧ SameBut [.herd] s.d e))
     ∧ (h.joined = true → h.pulling = true → h.waitFor = none → Runs .herdLineFault s (fun e =>
          e.herd = { h with line := true, joined := false, pulling := false, grabDue := false, holdRunning := false }
          ∧ Queued 0x0F01 (a * 256 + 4) e ∧ SameBut [.herd] s.d e)))

/-- R599 to R604, R606, R608 to R613, R615 and R616: what Rooster does when a beacon falls due, a transmission starts or ends, a frame arrives, a key is released, and the alarm is evaluated.
Completes (exec answers the next state that each clause describes, under conditions on the state and the operands alone): beaconDue, roosterTxStart,
roosterTxEnd, roosterKeyFrame, roosterRepeatFrame, roosterBadFrame, roosterKeyRelease, statusPagePending, roosterAlarmEval, roosterBlinkToggle,
roosterIdentifyEnd, roosterOtherKindFrame. -/
def Obligations.RoosterSendsAndReceives : Prop :=
  ∀ s : State, Live s →
    (let r := s.d.roo
     let c := carrier r.khz r.duty
     let sends := fun (t : IrTx) (f : Roo) (e : Dev) => e.roo = { f with tx := t, txPeriod := c.1, txOn := c.2 } ∧ SameBut [.rooster] s.d e
     let listens := r.tx = .free ∨ ∃ b, r.tx = .blink b
     (r.beaconEn = true → Runs .beaconDue s (fun e => e.roo = { r with beaconPending := true } ∧ SameBut [.rooster] s.d e))
     ∧ (r.tx = .free →
        (∀ p, r.statusPending = some p → Runs .roosterTxStart s (sends .statusPage
          { r with statusPending := none, pattern := patternPut r.pattern 3072 (frameBits (s.d.statusFrame p.toNat)) }))
        ∧ (r.statusPending = none → r.beaconPending = true → r.keyHeld = false → Runs .roosterTxStart s (sends .beacon
          { r with beaconPending := false, pattern := patternPut r.pattern 3072 (frameBits s.d.beaconFrame) }))
        ∧ (∀ a n, r.statusPending = none → (r.beaconPending = false ∨ r.keyHeld = true) → r.hostPending = some (a, n) →
          Runs .roosterTxStart s (sends (.host a n) { r with hostPending := none }))
        ∧ (r.statusPending = none → (r.beaconPending = false ∨ r.keyHeld = true) → r.hostPending = none → r.blinkPending = true →
          Runs .roosterTxStart s (fun e => sends (.blink true) { r with blinkPending := false, blinking := true } e ∧ Queued 0x0F85 1 e)))
     ∧ (r.tx = .beacon → Runs .roosterTxEnd s (fun e =>
          e.roo = { r with tx := .free, beaconsSent := r.beaconsSent + 1 } ∧ SameBut [.rooster] s.d e))
     ∧ (∀ a n, r.tx = .host a n → Runs .roosterTxEnd s (fun e => e.roo = { r with tx := .free } ∧ Queued 0x0F84 0 e ∧ SameBut [.rooster] s.d e))
     ∧ (r.tx = .statusPage → Runs .roosterTxEnd s (fun e => e.roo = { r with tx := .free } ∧ SameBut [.rooster] s.d e))
     ∧ (listens →
        (∀ (key arg : Byte), Runs (.roosterKeyFrame r.shortId key arg) s (fun e =>
          e.roo = { r with
            framesRx := satInc r.framesRx, lastKey := key, lastArg := arg, repeats := 0, keyHeld := true
            statusAsked := if key = 1 ∧ arg.toNat ≤ 3 then some arg else r.statusAsked
            blinkPending := r.blinkPending || (key = 2 && s.d.ctl.mode ≠ .save && !r.blinking) }
          ∧ Queued 0x0F80 (key.toNat * 256 + arg.toNat) e ∧ SameBut [.rooster] s.d e))
        ∧ (∀ (target : BitVec 16) (key arg : Byte), target ≠ r.shortId → Runs (.roosterKeyFrame target key arg) s (fun e =>
          e.roo = { r with framesRx := satInc r.framesRx } ∧ SameBut [.rooster] s.d e))
        ∧ (r.keyHeld = true → (r.repeats ≠ 17 ∨ r.lastKey ≠ 3 ∨ r.alarm = false) → Runs .roosterRepeatFrame s (fun e =>
          e.roo = { r with framesRx := satInc r.framesRx, repeats := satInc r.repeats } ∧ SameBut [.rooster] s.d e))
        ∧ (r.keyHeld = true → r.repeats = 17 → r.lastKey = 3 → r.alarm = true → Runs .roosterRepeatFrame s (fun e =>
          e.roo = { r with framesRx := satInc r.framesRx, repeats := 18, alarm := false } ∧ Queued 0x0F83 s.d.topFaultNow.toNat e
          ∧ SameBut [.rooster] s.d e))
        ∧ Runs .roosterBadFrame s (fun e => e.roo = { r with framesBad := satInc r.framesBad } ∧ SameBut [.rooster] s.d e)
        ∧ Runs .roosterOtherKindFrame s (fun e => e.roo = { r with framesRx := satInc r.framesRx } ∧ SameBut [.rooster] s.d e))
     ∧ (r.keyHeld = true → Runs .roosterKeyRelease s (fun e => e.roo = { r with keyHeld := false }
          ∧ Queued 0x0F81 (r.lastKey.toNat * 256 + r.repeats.toNat) e ∧ SameBut [.rooster] s.d e))
     ∧ (∀ p, r.statusAsked = some p → Runs .statusPagePending s (fun e =>
          e.roo = { r with statusAsked := none, statusPending := some p } ∧ SameBut [.rooster] s.d e))
     ∧ Runs .roosterAlarmEval s (fun e =>
          (let t := s.d.topFaultNow
           e.roo = { r with topFault := t, alarm := r.alarm || (t ≠ r.topFault && t ≠ 0) }
           ∧ (t ≠ r.topFault → t ≠ 0 → Queued 0x0F82 t.toNat e) ∧ SameBut [.rooster] s.d e))
     ∧ (∀ b, r.tx = .blink b → Runs .roosterBlinkToggle s (fun e => e.roo = { r with tx := .blink (!b) } ∧ SameBut [.rooster] s.d e))
     ∧ (r.blinking = true → Runs .roosterIdentifyEnd s (fun e =>
          e.roo = { r with blinking := false, tx := .free } ∧ Queued 0x0F85 0 e ∧ SameBut [.rooster] s.d e)))

/-! ### The thermal unit, periodic work, boundary scan (chapters 2, 3 and 19) -/

/-- R51, R52, R69, R353, R419, R645, R648 to R651 and R656: an evaluation takes the mean of the last 100 scans, follows each cause of THERM_N and reports its edges; a minute is counted in its bin; a due time that
passes makes its task late; the boundary-scan port stands apart from everything else.
Completes (exec answers the next state that each clause describes, under conditions on the state and the operands alone): thermalEval, histMinute,
taskDueMissed, jtagTck. -/
def Obligations.ThermalTasksAndScan : Prop :=
  ∀ s : State,
    (Live s → RestoreStays s →
      (let t := s.d.therm
       let die := if t.scans = [] then t.tDie else t.scans.foldl (· + ·) 0 / (t.scans.length : Int)
       Runs .thermalEval s (fun e =>
         e.therm.tDie = die ∧ e.therm.tMax = max t.tMax die
         ∧ (e.therm.causes.getLsbD 0 = true ↔ if t.causes.getLsbD 0 then (t.off.toNat : Int) ≤ die else (t.on.toNat : Int) ≤ die)
         ∧ (e.therm.causes.getLsbD 1 = true ↔ ∃ m ∈ s.d.mc, m.overTemp = true)
         ∧ (e.therm.active = true ↔ e.therm.causes ≠ 0)
         ∧ (t.active = false → e.therm.active = true → Queued 0x1100 e.therm.causes.toNat e)
         ∧ (t.active = true → e.therm.active = false → Queued 0x1101 0 e)
         ∧ (t.overLimit = false → 151 ≤ die → e.therm.overLimit = true ∧ Queued 0x1102 (tempByte die).toNat e)
         ∧ (∀ c : Fin 4, (s.d.chan c).tempTrigEn = true → (s.d.chan c).used = true → (s.d.chan c).offline = false → (s.d.chan c).fullTrain = false →
              (s.d.chan c).pass = none → s.d.ctl.mode = .operate →
              ((e.chan c).pass ≠ none ↔ 8 ≤ (die - (s.d.chan c).passTemp).natAbs))
         ∧ SameBut [.channels, .image, .thermal, .tasks] s.d e)
       ∧ Runs .histMinute s (fun e => e.therm = { t with
           hist := t.hist.modify (histBin t.minuteMax) satInc
           minutes := (t.minutes ++ [t.minuteMax]).drop (t.minutes.length + 1 - 1440), minuteMax := t.tDie }
           ∧ SameBut [.thermal] s.d e)
       ∧ (∀ task channel n : Nat, s.d.ctl.mode = .operate →
            (task = 1 ∧ channel < 4 ∧ (s.d.chan channel).retrainEn = true ∧ (s.d.chan channel).used = true ∧ n = 4 + channel
              ∨ task = 2 ∧ n = 8 ∨ task = 3 ∧ n = 9 ∨ task = 4 ∧ n = 10) →
          Runs (.taskDueMissed task channel) s (fun e =>
            e.tasks.map (fun k => { k with anchor := none })
              = (s.d.tasks.modify n (fun k => { k with missed := k.missed + 1, behind := true })).map (fun k => { k with anchor := none })
            ∧ ((s.d.task n).behind = false → Queued 0x0150 (task * 256 + (if task = 1 then channel else 0)) e) ∧ SameBut [.tasks] s.d e))))
    ∧ (∀ tms tdi trstN : Bool, s.d.ctl.mode ≠ .unpowered → s.d.ctl.domainsDown.getLsbD 6 = false →
        (let tap := if trstN then s.d.jtag.tap.next tms else .testLogicReset
         ∃ tdo, exec (.jtagTck tms tdi trstN) s = .next { s with d := { s.d with jtag := {
            tap := tap, tdo := tdo, shifts := if tap.shifting then s.d.jtag.shifts + 1 else s.d.jtag.shifts } } }
          ∧ (tap.shifting = false → tdo = none)))

/-- R15 and Table 2.3: nothing but RESET_N released leaves UNPOWERED, and there a command changes no unit of the data plane. -/
def Obligations.OnlyResetLeavesUnpowered : Prop :=
  ∀ (c : Instr) (s t : State), s.d.out = Outbox.none → s.d.ctl.mode = .unpowered → exec c s = .next t →
    (t.d.ctl.mode = .unpowered ∨ c = .resetNRelease)
      ∧ (c ≠ .resetNRelease → t.d.rail.st = s.d.rail.st ∧ t.d.eu.queue = s.d.eu.queue ∧ t.d.mem = s.d.mem ∧ t.d.reg = s.d.reg)
end

