-- ==== Sys2Proof/Laws/State.lean ====
section
/-! SUPPORT. What each named update of the device leaves unchanged, one lemma a field, and what it writes. -/
namespace Sys2Proof.Machine
open Sys2Proof

/-! ### onChan -/

@[simp] theorem Dev.onChan_eu (d : Dev) (c : Nat) (f : Mc → Mc) : (d.onChan c f).eu = d.eu := rfl
@[simp] theorem Dev.onChan_ctl (d : Dev) (c : Nat) (f : Mc → Mc) : (d.onChan c f).ctl = d.ctl := rfl
@[simp] theorem Dev.onChan_clk (d : Dev) (c : Nat) (f : Mc → Mc) : (d.onChan c f).clk = d.clk := rfl
@[simp] theorem Dev.onChan_ident (d : Dev) (c : Nat) (f : Mc → Mc) : (d.onChan c f).ident = d.ident := rfl
@[simp] theorem Dev.onChan_fa (d : Dev) (c : Nat) (f : Mc → Mc) : (d.onChan c f).fa = d.fa := rfl
@[simp] theorem Dev.onChan_fb (d : Dev) (c : Nat) (f : Mc → Mc) : (d.onChan c f).fb = d.fb := rfl
@[simp] theorem Dev.onChan_reg (d : Dev) (c : Nat) (f : Mc → Mc) : (d.onChan c f).reg = d.reg := rfl
@[simp] theorem Dev.onChan_ce (d : Dev) (c : Nat) (f : Mc → Mc) : (d.onChan c f).ce = d.ce := rfl
@[simp] theorem Dev.onChan_dcfg (d : Dev) (c : Nat) (f : Mc → Mc) : (d.onChan c f).dcfg = d.dcfg := rfl
@[simp] theorem Dev.onChan_mem (d : Dev) (c : Nat) (f : Mc → Mc) : (d.onChan c f).mem = d.mem := rfl
@[simp] theorem Dev.onChan_img (d : Dev) (c : Nat) (f : Mc → Mc) : (d.onChan c f).img = d.img := rfl
@[simp] theorem Dev.onChan_cip (d : Dev) (c : Nat) (f : Mc → Mc) : (d.onChan c f).cip = d.cip := rfl
@[simp] theorem Dev.onChan_rail (d : Dev) (c : Nat) (f : Mc → Mc) : (d.onChan c f).rail = d.rail := rfl
@[simp] theorem Dev.onChan_adc (d : Dev) (c : Nat) (f : Mc → Mc) : (d.onChan c f).adc = d.adc := rfl
@[simp] theorem Dev.onChan_egy (d : Dev) (c : Nat) (f : Mc → Mc) : (d.onChan c f).egy = d.egy := rfl
@[simp] theorem Dev.onChan_adm (d : Dev) (c : Nat) (f : Mc → Mc) : (d.onChan c f).adm = d.adm := rfl
@[simp] theorem Dev.onChan_sav (d : Dev) (c : Nat) (f : Mc → Mc) : (d.onChan c f).sav = d.sav := rfl
@[simp] theorem Dev.onChan_rst (d : Dev) (c : Nat) (f : Mc → Mc) : (d.onChan c f).rst = d.rst := rfl
@[simp] theorem Dev.onChan_herd (d : Dev) (c : Nat) (f : Mc → Mc) : (d.onChan c f).herd = d.herd := rfl
@[simp] theorem Dev.onChan_roo (d : Dev) (c : Nat) (f : Mc → Mc) : (d.onChan c f).roo = d.roo := rfl
@[simp] theorem Dev.onChan_therm (d : Dev) (c : Nat) (f : Mc → Mc) : (d.onChan c f).therm = d.therm := rfl
@[simp] theorem Dev.onChan_tasks (d : Dev) (c : Nat) (f : Mc → Mc) : (d.onChan c f).tasks = d.tasks := rfl
@[simp] theorem Dev.onChan_jtag (d : Dev) (c : Nat) (f : Mc → Mc) : (d.onChan c f).jtag = d.jtag := rfl
@[simp] theorem Dev.onChan_free (d : Dev) (c : Nat) (f : Mc → Mc) : (d.onChan c f).free = d.free := rfl
@[simp] theorem Dev.onChan_out (d : Dev) (c : Nat) (f : Mc → Mc) : (d.onChan c f).out = d.out := rfl
@[simp] theorem Dev.onChan_mc (d : Dev) (c : Nat) (f : Mc → Mc) : (d.onChan c f).mc = listUpd d.mc c f := rfl

/-! ### onEngine -/

@[simp] theorem Dev.onEngine_eu (d : Dev) (n : Nat) (f : Ce → Ce) : (d.onEngine n f).eu = d.eu := rfl
@[simp] theorem Dev.onEngine_ctl (d : Dev) (n : Nat) (f : Ce → Ce) : (d.onEngine n f).ctl = d.ctl := rfl
@[simp] theorem Dev.onEngine_clk (d : Dev) (n : Nat) (f : Ce → Ce) : (d.onEngine n f).clk = d.clk := rfl
@[simp] theorem Dev.onEngine_ident (d : Dev) (n : Nat) (f : Ce → Ce) : (d.onEngine n f).ident = d.ident := rfl
@[simp] theorem Dev.onEngine_fa (d : Dev) (n : Nat) (f : Ce → Ce) : (d.onEngine n f).fa = d.fa := rfl
@[simp] theorem Dev.onEngine_fb (d : Dev) (n : Nat) (f : Ce → Ce) : (d.onEngine n f).fb = d.fb := rfl
@[simp] theorem Dev.onEngine_reg (d : Dev) (n : Nat) (f : Ce → Ce) : (d.onEngine n f).reg = d.reg := rfl
@[simp] theorem Dev.onEngine_mc (d : Dev) (n : Nat) (f : Ce → Ce) : (d.onEngine n f).mc = d.mc := rfl
@[simp] theorem Dev.onEngine_dcfg (d : Dev) (n : Nat) (f : Ce → Ce) : (d.onEngine n f).dcfg = d.dcfg := rfl
@[simp] theorem Dev.onEngine_mem (d : Dev) (n : Nat) (f : Ce → Ce) : (d.onEngine n f).mem = d.mem := rfl
@[simp] theorem Dev.onEngine_img (d : Dev) (n : Nat) (f : Ce → Ce) : (d.onEngine n f).img = d.img := rfl
@[simp] theorem Dev.onEngine_cip (d : Dev) (n : Nat) (f : Ce → Ce) : (d.onEngine n f).cip = d.cip := rfl
@[simp] theorem Dev.onEngine_rail (d : Dev) (n : Nat) (f : Ce → Ce) : (d.onEngine n f).rail = d.rail := rfl
@[simp] theorem Dev.onEngine_adc (d : Dev) (n : Nat) (f : Ce → Ce) : (d.onEngine n f).adc = d.adc := rfl
@[simp] theorem Dev.onEngine_egy (d : Dev) (n : Nat) (f : Ce → Ce) : (d.onEngine n f).egy = d.egy := rfl
@[simp] theorem Dev.onEngine_adm (d : Dev) (n : Nat) (f : Ce → Ce) : (d.onEngine n f).adm = d.adm := rfl
@[simp] theorem Dev.onEngine_sav (d : Dev) (n : Nat) (f : Ce → Ce) : (d.onEngine n f).sav = d.sav := rfl
@[simp] theorem Dev.onEngine_rst (d : Dev) (n : Nat) (f : Ce → Ce) : (d.onEngine n f).rst = d.rst := rfl
@[simp] theorem Dev.onEngine_herd (d : Dev) (n : Nat) (f : Ce → Ce) : (d.onEngine n f).herd = d.herd := rfl
@[simp] theorem Dev.onEngine_roo (d : Dev) (n : Nat) (f : Ce → Ce) : (d.onEngine n f).roo = d.roo := rfl
@[simp] theorem Dev.onEngine_therm (d : Dev) (n : Nat) (f : Ce → Ce) : (d.onEngine n f).therm = d.therm := rfl
@[simp] theorem Dev.onEngine_tasks (d : Dev) (n : Nat) (f : Ce → Ce) : (d.onEngine n f).tasks = d.tasks := rfl
@[simp] theorem Dev.onEngine_jtag (d : Dev) (n : Nat) (f : Ce → Ce) : (d.onEngine n f).jtag = d.jtag := rfl
@[simp] theorem Dev.onEngine_free (d : Dev) (n : Nat) (f : Ce → Ce) : (d.onEngine n f).free = d.free := rfl
@[simp] theorem Dev.onEngine_out (d : Dev) (n : Nat) (f : Ce → Ce) : (d.onEngine n f).out = d.out := rfl
@[simp] theorem Dev.onEngine_ce (d : Dev) (n : Nat) (f : Ce → Ce) : (d.onEngine n f).ce = listUpd d.ce n f := rfl

/-! ### onSlot -/

@[simp] theorem Dev.onSlot_eu (d : Dev) (n : Nat) (f : Slot → Slot) : (d.onSlot n f).eu = d.eu := rfl
@[simp] theorem Dev.onSlot_ctl (d : Dev) (n : Nat) (f : Slot → Slot) : (d.onSlot n f).ctl = d.ctl := rfl
@[simp] theorem Dev.onSlot_clk (d : Dev) (n : Nat) (f : Slot → Slot) : (d.onSlot n f).clk = d.clk := rfl
@[simp] theorem Dev.onSlot_ident (d : Dev) (n : Nat) (f : Slot → Slot) : (d.onSlot n f).ident = d.ident := rfl
@[simp] theorem Dev.onSlot_fa (d : Dev) (n : Nat) (f : Slot → Slot) : (d.onSlot n f).fa = d.fa := rfl
@[simp] theorem Dev.onSlot_fb (d : Dev) (n : Nat) (f : Slot → Slot) : (d.onSlot n f).fb = d.fb := rfl
@[simp] theorem Dev.onSlot_reg (d : Dev) (n : Nat) (f : Slot → Slot) : (d.onSlot n f).reg = d.reg := rfl
@[simp] theorem Dev.onSlot_ce (d : Dev) (n : Nat) (f : Slot → Slot) : (d.onSlot n f).ce = d.ce := rfl
@[simp] theorem Dev.onSlot_mc (d : Dev) (n : Nat) (f : Slot → Slot) : (d.onSlot n f).mc = d.mc := rfl
@[simp] theorem Dev.onSlot_dcfg (d : Dev) (n : Nat) (f : Slot → Slot) : (d.onSlot n f).dcfg = d.dcfg := rfl
@[simp] theorem Dev.onSlot_mem (d : Dev) (n : Nat) (f : Slot → Slot) : (d.onSlot n f).mem = d.mem := rfl
@[simp] theorem Dev.onSlot_img (d : Dev) (n : Nat) (f : Slot → Slot) : (d.onSlot n f).img = d.img := rfl
@[simp] theorem Dev.onSlot_cip (d : Dev) (n : Nat) (f : Slot → Slot) : (d.onSlot n f).cip = d.cip := rfl
@[simp] theorem Dev.onSlot_adc (d : Dev) (n : Nat) (f : Slot → Slot) : (d.onSlot n f).adc = d.adc := rfl
@[simp] theorem Dev.onSlot_egy (d : Dev) (n : Nat) (f : Slot → Slot) : (d.onSlot n f).egy = d.egy := rfl
@[simp] theorem Dev.onSlot_adm (d : Dev) (n : Nat) (f : Slot → Slot) : (d.onSlot n f).adm = d.adm := rfl
@[simp] theorem Dev.onSlot_sav (d : Dev) (n : Nat) (f : Slot → Slot) : (d.onSlot n f).sav = d.sav := rfl
@[simp] theorem Dev.onSlot_rst (d : Dev) (n : Nat) (f : Slot → Slot) : (d.onSlot n f).rst = d.rst := rfl
@[simp] theorem Dev.onSlot_herd (d : Dev) (n : Nat) (f : Slot → Slot) : (d.onSlot n f).herd = d.herd := rfl
@[simp] theorem Dev.onSlot_roo (d : Dev) (n : Nat) (f : Slot → Slot) : (d.onSlot n f).roo = d.roo := rfl
@[simp] theorem Dev.onSlot_therm (d : Dev) (n : Nat) (f : Slot → Slot) : (d.onSlot n f).therm = d.therm := rfl
@[simp] theorem Dev.onSlot_tasks (d : Dev) (n : Nat) (f : Slot → Slot) : (d.onSlot n f).tasks = d.tasks := rfl
@[simp] theorem Dev.onSlot_jtag (d : Dev) (n : Nat) (f : Slot → Slot) : (d.onSlot n f).jtag = d.jtag := rfl
@[simp] theorem Dev.onSlot_free (d : Dev) (n : Nat) (f : Slot → Slot) : (d.onSlot n f).free = d.free := rfl
@[simp] theorem Dev.onSlot_out (d : Dev) (n : Nat) (f : Slot → Slot) : (d.onSlot n f).out = d.out := rfl
@[simp] theorem Dev.onSlot_slots (d : Dev) (n : Nat) (f : Slot → Slot) : (d.onSlot n f).rail.slots = listUpd d.rail.slots n f := rfl

/-! ### onRegion -/

@[simp] theorem Dev.onRegion_eu (d : Dev) (n : Nat) (f : Region → Region) : (d.onRegion n f).eu = d.eu := rfl
@[simp] theorem Dev.onRegion_ctl (d : Dev) (n : Nat) (f : Region → Region) : (d.onRegion n f).ctl = d.ctl := rfl
@[simp] theorem Dev.onRegion_clk (d : Dev) (n : Nat) (f : Region → Region) : (d.onRegion n f).clk = d.clk := rfl
@[simp] theorem Dev.onRegion_ident (d : Dev) (n : Nat) (f : Region → Region) : (d.onRegion n f).ident = d.ident := rfl
@[simp] theorem Dev.onRegion_fa (d : Dev) (n : Nat) (f : Region → Region) : (d.onRegion n f).fa = d.fa := rfl
@[simp] theorem Dev.onRegion_fb (d : Dev) (n : Nat) (f : Region → Region) : (d.onRegion n f).fb = d.fb := rfl
@[simp] theorem Dev.onRegion_ce (d : Dev) (n : Nat) (f : Region → Region) : (d.onRegion n f).ce = d.ce := rfl
@[simp] theorem Dev.onRegion_mc (d : Dev) (n : Nat) (f : Region → Region) : (d.onRegion n f).mc = d.mc := rfl
@[simp] theorem Dev.onRegion_dcfg (d : Dev) (n : Nat) (f : Region → Region) : (d.onRegion n f).dcfg = d.dcfg := rfl
@[simp] theorem Dev.onRegion_mem (d : Dev) (n : Nat) (f : Region → Region) : (d.onRegion n f).mem = d.mem := rfl
@[simp] theorem Dev.onRegion_img (d : Dev) (n : Nat) (f : Region → Region) : (d.onRegion n f).img = d.img := rfl
@[simp] theorem Dev.onRegion_cip (d : Dev) (n : Nat) (f : Region → Region) : (d.onRegion n f).cip = d.cip := rfl
@[simp] theorem Dev.onRegion_rail (d : Dev) (n : Nat) (f : Region → Region) : (d.onRegion n f).rail = d.rail := rfl
@[simp] theorem Dev.onRegion_adc (d : Dev) (n : Nat) (f : Region → Region) : (d.onRegion n f).adc = d.adc := rfl
@[simp] theorem Dev.onRegion_egy (d : Dev) (n : Nat) (f : Region → Region) : (d.onRegion n f).egy = d.egy := rfl
@[simp] theorem Dev.onRegion_adm (d : Dev) (n : Nat) (f : Region → Region) : (d.onRegion n f).adm = d.adm := rfl
@[simp] theorem Dev.onRegion_sav (d : Dev) (n : Nat) (f : Region → Region) : (d.onRegion n f).sav = d.sav := rfl
@[simp] theorem Dev.onRegion_rst (d : Dev) (n : Nat) (f : Region → Region) : (d.onRegion n f).rst = d.rst := rfl
@[simp] theorem Dev.onRegion_herd (d : Dev) (n : Nat) (f : Region → Region) : (d.onRegion n f).herd = d.herd := rfl
@[simp] theorem Dev.onRegion_roo (d : Dev) (n : Nat) (f : Region → Region) : (d.onRegion n f).roo = d.roo := rfl
@[simp] theorem Dev.onRegion_therm (d : Dev) (n : Nat) (f : Region → Region) : (d.onRegion n f).therm = d.therm := rfl
@[simp] theorem Dev.onRegion_tasks (d : Dev) (n : Nat) (f : Region → Region) : (d.onRegion n f).tasks = d.tasks := rfl
@[simp] theorem Dev.onRegion_jtag (d : Dev) (n : Nat) (f : Region → Region) : (d.onRegion n f).jtag = d.jtag := rfl
@[simp] theorem Dev.onRegion_free (d : Dev) (n : Nat) (f : Region → Region) : (d.onRegion n f).free = d.free := rfl
@[simp] theorem Dev.onRegion_out (d : Dev) (n : Nat) (f : Region → Region) : (d.onRegion n f).out = d.out := rfl
@[simp] theorem Dev.onRegion_regions (d : Dev) (n : Nat) (f : Region → Region) : (d.onRegion n f).reg.regions = listUpd d.reg.regions n f := rfl
@[simp] theorem Dev.onRegion_epoch (d : Dev) (n : Nat) (f : Region → Region) : (d.onRegion n f).reg.epoch = d.reg.epoch := rfl

/-! ### onTask -/

@[simp] theorem Dev.onTask_eu (d : Dev) (t : Nat) (f : Task → Task) : (d.onTask t f).eu = d.eu := rfl
@[simp] theorem Dev.onTask_ctl (d : Dev) (t : Nat) (f : Task → Task) : (d.onTask t f).ctl = d.ctl := rfl
@[simp] theorem Dev.onTask_clk (d : Dev) (t : Nat) (f : Task → Task) : (d.onTask t f).clk = d.clk := rfl
@[simp] theorem Dev.onTask_ident (d : Dev) (t : Nat) (f : Task → Task) : (d.onTask t f).ident = d.ident := rfl
@[simp] theorem Dev.onTask_fa (d : Dev) (t : Nat) (f : Task → Task) : (d.onTask t f).fa = d.fa := rfl
@[simp] theorem Dev.onTask_fb (d : Dev) (t : Nat) (f : Task → Task) : (d.onTask t f).fb = d.fb := rfl
@[simp] theorem Dev.onTask_reg (d : Dev) (t : Nat) (f : Task → Task) : (d.onTask t f).reg = d.reg := rfl
@[simp] theorem Dev.onTask_ce (d : Dev) (t : Nat) (f : Task → Task) : (d.onTask t f).ce = d.ce := rfl
@[simp] theorem Dev.onTask_mc (d : Dev) (t : Nat) (f : Task → Task) : (d.onTask t f).mc = d.mc := rfl
@[simp] theorem Dev.onTask_dcfg (d : Dev) (t : Nat) (f : Task → Task) : (d.onTask t f).dcfg = d.dcfg := rfl
@[simp] theorem Dev.onTask_mem (d : Dev) (t : Nat) (f : Task → Task) : (d.onTask t f).mem = d.mem := rfl
@[simp] theorem Dev.onTask_img (d : Dev) (t : Nat) (f : Task → Task) : (d.onTask t f).img = d.img := rfl
@[simp] theorem Dev.onTask_cip (d : Dev) (t : Nat) (f : Task → Task) : (d.onTask t f).cip = d.cip := rfl
@[simp] theorem Dev.onTask_rail (d : Dev) (t : Nat) (f : Task → Task) : (d.onTask t f).rail = d.rail := rfl
@[simp] theorem Dev.onTask_adc (d : Dev) (t : Nat) (f : Task → Task) : (d.onTask t f).adc = d.adc := rfl
@[simp] theorem Dev.onTask_egy (d : Dev) (t : Nat) (f : Task → Task) : (d.onTask t f).egy = d.egy := rfl
@[simp] theorem Dev.onTask_adm (d : Dev) (t : Nat) (f : Task → Task) : (d.onTask t f).adm = d.adm := rfl
@[simp] theorem Dev.onTask_sav (d : Dev) (t : Nat) (f : Task → Task) : (d.onTask t f).sav = d.sav := rfl
@[simp] theorem Dev.onTask_rst (d : Dev) (t : Nat) (f : Task → Task) : (d.onTask t f).rst = d.rst := rfl
@[simp] theorem Dev.onTask_herd (d : Dev) (t : Nat) (f : Task → Task) : (d.onTask t f).herd = d.herd := rfl
@[simp] theorem Dev.onTask_roo (d : Dev) (t : Nat) (f : Task → Task) : (d.onTask t f).roo = d.roo := rfl
@[simp] theorem Dev.onTask_therm (d : Dev) (t : Nat) (f : Task → Task) : (d.onTask t f).therm = d.therm := rfl
@[simp] theorem Dev.onTask_jtag (d : Dev) (t : Nat) (f : Task → Task) : (d.onTask t f).jtag = d.jtag := rfl
@[simp] theorem Dev.onTask_free (d : Dev) (t : Nat) (f : Task → Task) : (d.onTask t f).free = d.free := rfl
@[simp] theorem Dev.onTask_out (d : Dev) (t : Nat) (f : Task → Task) : (d.onTask t f).out = d.out := rfl
@[simp] theorem Dev.onTask_tasks (d : Dev) (t : Nat) (f : Task → Task) : (d.onTask t f).tasks = listUpd d.tasks t f := rfl

/-! ### onPort -/

@[simp] theorem Dev.onPort_eu (d : Dev) (p : Port) (f : Fab → Fab) : (d.onPort p f).eu = d.eu := by cases p <;> rfl
@[simp] theorem Dev.onPort_ctl (d : Dev) (p : Port) (f : Fab → Fab) : (d.onPort p f).ctl = d.ctl := by cases p <;> rfl
@[simp] theorem Dev.onPort_clk (d : Dev) (p : Port) (f : Fab → Fab) : (d.onPort p f).clk = d.clk := by cases p <;> rfl
@[simp] theorem Dev.onPort_ident (d : Dev) (p : Port) (f : Fab → Fab) : (d.onPort p f).ident = d.ident := by cases p <;> rfl
@[simp] theorem Dev.onPort_reg (d : Dev) (p : Port) (f : Fab → Fab) : (d.onPort p f).reg = d.reg := by cases p <;> rfl
@[simp] theorem Dev.onPort_ce (d : Dev) (p : Port) (f : Fab → Fab) : (d.onPort p f).ce = d.ce := by cases p <;> rfl
@[simp] theorem Dev.onPort_mc (d : Dev) (p : Port) (f : Fab → Fab) : (d.onPort p f).mc = d.mc := by cases p <;> rfl
@[simp] theorem Dev.onPort_dcfg (d : Dev) (p : Port) (f : Fab → Fab) : (d.onPort p f).dcfg = d.dcfg := by cases p <;> rfl
@[simp] theorem Dev.onPort_mem (d : Dev) (p : Port) (f : Fab → Fab) : (d.onPort p f).mem = d.mem := by cases p <;> rfl
@[simp] theorem Dev.onPort_img (d : Dev) (p : Port) (f : Fab → Fab) : (d.onPort p f).img = d.img := by cases p <;> rfl
@[simp] theorem Dev.onPort_cip (d : Dev) (p : Port) (f : Fab → Fab) : (d.onPort p f).cip = d.cip := by cases p <;> rfl
@[simp] theorem Dev.onPort_rail (d : Dev) (p : Port) (f : Fab → Fab) : (d.onPort p f).rail = d.rail := by cases p <;> rfl
@[simp] theorem Dev.onPort_adc (d : Dev) (p : Port) (f : Fab → Fab) : (d.onPort p f).adc = d.adc := by cases p <;> rfl
@[simp] theorem Dev.onPort_egy (d : Dev) (p : Port) (f : Fab → Fab) : (d.onPort p f).egy = d.egy := by cases p <;> rfl
@[simp] theorem Dev.onPort_adm (d : Dev) (p : Port) (f : Fab → Fab) : (d.onPort p f).adm = d.adm := by cases p <;> rfl
@[simp] theorem Dev.onPort_sav (d : Dev) (p : Port) (f : Fab → Fab) : (d.onPort p f).sav = d.sav := by cases p <;> rfl
@[simp] theorem Dev.onPort_rst (d : Dev) (p : Port) (f : Fab → Fab) : (d.onPort p f).rst = d.rst := by cases p <;> rfl
@[simp] theorem Dev.onPort_herd (d : Dev) (p : Port) (f : Fab → Fab) : (d.onPort p f).herd = d.herd := by cases p <;> rfl
@[simp] theorem Dev.onPort_roo (d : Dev) (p : Port) (f : Fab → Fab) : (d.onPort p f).roo = d.roo := by cases p <;> rfl
@[simp] theorem Dev.onPort_therm (d : Dev) (p : Port) (f : Fab → Fab) : (d.onPort p f).therm = d.therm := by cases p <;> rfl
@[simp] theorem Dev.onPort_tasks (d : Dev) (p : Port) (f : Fab → Fab) : (d.onPort p f).tasks = d.tasks := by cases p <;> rfl
@[simp] theorem Dev.onPort_jtag (d : Dev) (p : Port) (f : Fab → Fab) : (d.onPort p f).jtag = d.jtag := by cases p <;> rfl
@[simp] theorem Dev.onPort_free (d : Dev) (p : Port) (f : Fab → Fab) : (d.onPort p f).free = d.free := by cases p <;> rfl
@[simp] theorem Dev.onPort_out (d : Dev) (p : Port) (f : Fab → Fab) : (d.onPort p f).out = d.out := by cases p <;> rfl
@[simp] theorem Dev.onPort_same (d : Dev) (p : Port) (f : Fab → Fab) : (d.onPort p f).port p = f (d.port p) := by cases p <;> rfl

/-! ### emitAt -/

@[simp] theorem Dev.emitAt_eu (d : Dev) (k c v : Nat) : (d.emitAt k c v).eu = d.eu := rfl
@[simp] theorem Dev.emitAt_ctl (d : Dev) (k c v : Nat) : (d.emitAt k c v).ctl = d.ctl := rfl
@[simp] theorem Dev.emitAt_clk (d : Dev) (k c v : Nat) : (d.emitAt k c v).clk = d.clk := rfl
@[simp] theorem Dev.emitAt_ident (d : Dev) (k c v : Nat) : (d.emitAt k c v).ident = d.ident := rfl
@[simp] theorem Dev.emitAt_fa (d : Dev) (k c v : Nat) : (d.emitAt k c v).fa = d.fa := rfl
@[simp] theorem Dev.emitAt_fb (d : Dev) (k c v : Nat) : (d.emitAt k c v).fb = d.fb := rfl
@[simp] theorem Dev.emitAt_reg (d : Dev) (k c v : Nat) : (d.emitAt k c v).reg = d.reg := rfl
@[simp] theorem Dev.emitAt_ce (d : Dev) (k c v : Nat) : (d.emitAt k c v).ce = d.ce := rfl
@[simp] theorem Dev.emitAt_mc (d : Dev) (k c v : Nat) : (d.emitAt k c v).mc = d.mc := rfl
@[simp] theorem Dev.emitAt_dcfg (d : Dev) (k c v : Nat) : (d.emitAt k c v).dcfg = d.dcfg := rfl
@[simp] theorem Dev.emitAt_mem (d : Dev) (k c v : Nat) : (d.emitAt k c v).mem = d.mem := rfl
@[simp] theorem Dev.emitAt_img (d : Dev) (k c v : Nat) : (d.emitAt k c v).img = d.img := rfl
@[simp] theorem Dev.emitAt_cip (d : Dev) (k c v : Nat) : (d.emitAt k c v).cip = d.cip := rfl
@[simp] theorem Dev.emitAt_rail (d : Dev) (k c v : Nat) : (d.emitAt k c v).rail = d.rail := rfl
@[simp] theorem Dev.emitAt_adc (d : Dev) (k c v : Nat) : (d.emitAt k c v).adc = d.adc := rfl
@[simp] theorem Dev.emitAt_egy (d : Dev) (k c v : Nat) : (d.emitAt k c v).egy = d.egy := rfl
@[simp] theorem Dev.emitAt_adm (d : Dev) (k c v : Nat) : (d.emitAt k c v).adm = d.adm := rfl
@[simp] theorem Dev.emitAt_sav (d : Dev) (k c v : Nat) : (d.emitAt k c v).sav = d.sav := rfl
@[simp] theorem Dev.emitAt_rst (d : Dev) (k c v : Nat) : (d.emitAt k c v).rst = d.rst := rfl
@[simp] theorem Dev.emitAt_herd (d : Dev) (k c v : Nat) : (d.emitAt k c v).herd = d.herd := rfl
@[simp] theorem Dev.emitAt_roo (d : Dev) (k c v : Nat) : (d.emitAt k c v).roo = d.roo := rfl
@[simp] theorem Dev.emitAt_therm (d : Dev) (k c v : Nat) : (d.emitAt k c v).therm = d.therm := rfl
@[simp] theorem Dev.emitAt_tasks (d : Dev) (k c v : Nat) : (d.emitAt k c v).tasks = d.tasks := rfl
@[simp] theorem Dev.emitAt_jtag (d : Dev) (k c v : Nat) : (d.emitAt k c v).jtag = d.jtag := rfl
@[simp] theorem Dev.emitAt_free (d : Dev) (k c v : Nat) : (d.emitAt k c v).free = d.free := rfl
@[simp] theorem Dev.emitAt_mem_ops (d : Dev) (k c v : Nat) : (d.emitAt k c v).out.mem = d.out.mem := rfl

/-! ### emit -/

@[simp] theorem Dev.emit_eu (d : Dev) (c v : Nat) : (d.emit c v).eu = d.eu := rfl
@[simp] theorem Dev.emit_ctl (d : Dev) (c v : Nat) : (d.emit c v).ctl = d.ctl := rfl
@[simp] theorem Dev.emit_clk (d : Dev) (c v : Nat) : (d.emit c v).clk = d.clk := rfl
@[simp] theorem Dev.emit_ident (d : Dev) (c v : Nat) : (d.emit c v).ident = d.ident := rfl
@[simp] theorem Dev.emit_fa (d : Dev) (c v : Nat) : (d.emit c v).fa = d.fa := rfl
@[simp] theorem Dev.emit_fb (d : Dev) (c v : Nat) : (d.emit c v).fb = d.fb := rfl
@[simp] theorem Dev.emit_reg (d : Dev) (c v : Nat) : (d.emit c v).reg = d.reg := rfl
@[simp] theorem Dev.emit_ce (d : Dev) (c v : Nat) : (d.emit c v).ce = d.ce := rfl
@[simp] theorem Dev.emit_mc (d : Dev) (c v : Nat) : (d.emit c v).mc = d.mc := rfl
@[simp] theorem Dev.emit_dcfg (d : Dev) (c v : Nat) : (d.emit c v).dcfg = d.dcfg := rfl
@[simp] theorem Dev.emit_mem (d : Dev) (c v : Nat) : (d.emit c v).mem = d.mem := rfl
@[simp] theorem Dev.emit_img (d : Dev) (c v : Nat) : (d.emit c v).img = d.img := rfl
@[simp] theorem Dev.emit_cip (d : Dev) (c v : Nat) : (d.emit c v).cip = d.cip := rfl
@[simp] theorem Dev.emit_rail (d : Dev) (c v : Nat) : (d.emit c v).rail = d.rail := rfl
@[simp] theorem Dev.emit_adc (d : Dev) (c v : Nat) : (d.emit c v).adc = d.adc := rfl
@[simp] theorem Dev.emit_egy (d : Dev) (c v : Nat) : (d.emit c v).egy = d.egy := rfl
@[simp] theorem Dev.emit_adm (d : Dev) (c v : Nat) : (d.emit c v).adm = d.adm := rfl
@[simp] theorem Dev.emit_sav (d : Dev) (c v : Nat) : (d.emit c v).sav = d.sav := rfl
@[simp] theorem Dev.emit_rst (d : Dev) (c v : Nat) : (d.emit c v).rst = d.rst := rfl
@[simp] theorem Dev.emit_herd (d : Dev) (c v : Nat) : (d.emit c v).herd = d.herd := rfl
@[simp] theorem Dev.emit_roo (d : Dev) (c v : Nat) : (d.emit c v).roo = d.roo := rfl
@[simp] theorem Dev.emit_therm (d : Dev) (c v : Nat) : (d.emit c v).therm = d.therm := rfl
@[simp] theorem Dev.emit_tasks (d : Dev) (c v : Nat) : (d.emit c v).tasks = d.tasks := rfl
@[simp] theorem Dev.emit_jtag (d : Dev) (c v : Nat) : (d.emit c v).jtag = d.jtag := rfl
@[simp] theorem Dev.emit_free (d : Dev) (c v : Nat) : (d.emit c v).free = d.free := rfl
@[simp] theorem Dev.emit_mem_ops (d : Dev) (c v : Nat) : (d.emit c v).out.mem = d.out.mem := rfl

/-! ### used -/

@[simp] theorem Dev.used_eu (d : Dev) : (d.used).eu = d.eu := rfl
@[simp] theorem Dev.used_ctl (d : Dev) : (d.used).ctl = d.ctl := rfl
@[simp] theorem Dev.used_clk (d : Dev) : (d.used).clk = d.clk := rfl
@[simp] theorem Dev.used_ident (d : Dev) : (d.used).ident = d.ident := rfl
@[simp] theorem Dev.used_fa (d : Dev) : (d.used).fa = d.fa := rfl
@[simp] theorem Dev.used_fb (d : Dev) : (d.used).fb = d.fb := rfl
@[simp] theorem Dev.used_reg (d : Dev) : (d.used).reg = d.reg := rfl
@[simp] theorem Dev.used_ce (d : Dev) : (d.used).ce = d.ce := rfl
@[simp] theorem Dev.used_mc (d : Dev) : (d.used).mc = d.mc := rfl
@[simp] theorem Dev.used_dcfg (d : Dev) : (d.used).dcfg = d.dcfg := rfl
@[simp] theorem Dev.used_mem (d : Dev) : (d.used).mem = d.mem := rfl
@[simp] theorem Dev.used_img (d : Dev) : (d.used).img = d.img := rfl
@[simp] theorem Dev.used_cip (d : Dev) : (d.used).cip = d.cip := rfl
@[simp] theorem Dev.used_rail (d : Dev) : (d.used).rail = d.rail := rfl
@[simp] theorem Dev.used_adc (d : Dev) : (d.used).adc = d.adc := rfl
@[simp] theorem Dev.used_egy (d : Dev) : (d.used).egy = d.egy := rfl
@[simp] theorem Dev.used_adm (d : Dev) : (d.used).adm = d.adm := rfl
@[simp] theorem Dev.used_sav (d : Dev) : (d.used).sav = d.sav := rfl
@[simp] theorem Dev.used_rst (d : Dev) : (d.used).rst = d.rst := rfl
@[simp] theorem Dev.used_herd (d : Dev) : (d.used).herd = d.herd := rfl
@[simp] theorem Dev.used_roo (d : Dev) : (d.used).roo = d.roo := rfl
@[simp] theorem Dev.used_therm (d : Dev) : (d.used).therm = d.therm := rfl
@[simp] theorem Dev.used_tasks (d : Dev) : (d.used).tasks = d.tasks := rfl
@[simp] theorem Dev.used_jtag (d : Dev) : (d.used).jtag = d.jtag := rfl
@[simp] theorem Dev.used_out (d : Dev) : (d.used).out = d.out := rfl

/-! ### withReply -/

@[simp] theorem Dev.withReply_ctl (d : Dev) (x : Xact) (sd : Dev) (st : Byte) (p : List Word) : (d.withReply x sd st p).ctl = d.ctl := rfl
@[simp] theorem Dev.withReply_clk (d : Dev) (x : Xact) (sd : Dev) (st : Byte) (p : List Word) : (d.withReply x sd st p).clk = d.clk := rfl
@[simp] theorem Dev.withReply_ident (d : Dev) (x : Xact) (sd : Dev) (st : Byte) (p : List Word) : (d.withReply x sd st p).ident = d.ident := rfl
@[simp] theorem Dev.withReply_fa (d : Dev) (x : Xact) (sd : Dev) (st : Byte) (p : List Word) : (d.withReply x sd st p).fa = d.fa := rfl
@[simp] theorem Dev.withReply_fb (d : Dev) (x : Xact) (sd : Dev) (st : Byte) (p : List Word) : (d.withReply x sd st p).fb = d.fb := rfl
@[simp] theorem Dev.withReply_reg (d : Dev) (x : Xact) (sd : Dev) (st : Byte) (p : List Word) : (d.withReply x sd st p).reg = d.reg := rfl
@[simp] theorem Dev.withReply_ce (d : Dev) (x : Xact) (sd : Dev) (st : Byte) (p : List Word) : (d.withReply x sd st p).ce = d.ce := rfl
@[simp] theorem Dev.withReply_mc (d : Dev) (x : Xact) (sd : Dev) (st : Byte) (p : List Word) : (d.withReply x sd st p).mc = d.mc := rfl
@[simp] theorem Dev.withReply_dcfg (d : Dev) (x : Xact) (sd : Dev) (st : Byte) (p : List Word) : (d.withReply x sd st p).dcfg = d.dcfg := rfl
@[simp] theorem Dev.withReply_mem (d : Dev) (x : Xact) (sd : Dev) (st : Byte) (p : List Word) : (d.withReply x sd st p).mem = d.mem := rfl
@[simp] theorem Dev.withReply_img (d : Dev) (x : Xact) (sd : Dev) (st : Byte) (p : List Word) : (d.withReply x sd st p).img = d.img := rfl
@[simp] theorem Dev.withReply_cip (d : Dev) (x : Xact) (sd : Dev) (st : Byte) (p : List Word) : (d.withReply x sd st p).cip = d.cip := rfl
@[simp] theorem Dev.withReply_rail (d : Dev) (x : Xact) (sd : Dev) (st : Byte) (p : List Word) : (d.withReply x sd st p).rail = d.rail := rfl
@[simp] theorem Dev.withReply_adc (d : Dev) (x : Xact) (sd : Dev) (st : Byte) (p : List Word) : (d.withReply x sd st p).adc = d.adc := rfl
@[simp] theorem Dev.withReply_egy (d : Dev) (x : Xact) (sd : Dev) (st : Byte) (p : List Word) : (d.withReply x sd st p).egy = d.egy := rfl
@[simp] theorem Dev.withReply_adm (d : Dev) (x : Xact) (sd : Dev) (st : Byte) (p : List Word) : (d.withReply x sd st p).adm = d.adm := rfl
@[simp] theorem Dev.withReply_sav (d : Dev) (x : Xact) (sd : Dev) (st : Byte) (p : List Word) : (d.withReply x sd st p).sav = d.sav := rfl
@[simp] theorem Dev.withReply_rst (d : Dev) (x : Xact) (sd : Dev) (st : Byte) (p : List Word) : (d.withReply x sd st p).rst = d.rst := rfl
@[simp] theorem Dev.withReply_herd (d : Dev) (x : Xact) (sd : Dev) (st : Byte) (p : List Word) : (d.withReply x sd st p).herd = d.herd := rfl
@[simp] theorem Dev.withReply_roo (d : Dev) (x : Xact) (sd : Dev) (st : Byte) (p : List Word) : (d.withReply x sd st p).roo = d.roo := rfl
@[simp] theorem Dev.withReply_therm (d : Dev) (x : Xact) (sd : Dev) (st : Byte) (p : List Word) : (d.withReply x sd st p).therm = d.therm := rfl
@[simp] theorem Dev.withReply_tasks (d : Dev) (x : Xact) (sd : Dev) (st : Byte) (p : List Word) : (d.withReply x sd st p).tasks = d.tasks := rfl
@[simp] theorem Dev.withReply_jtag (d : Dev) (x : Xact) (sd : Dev) (st : Byte) (p : List Word) : (d.withReply x sd st p).jtag = d.jtag := rfl
@[simp] theorem Dev.withReply_free (d : Dev) (x : Xact) (sd : Dev) (st : Byte) (p : List Word) : (d.withReply x sd st p).free = d.free := rfl
@[simp] theorem Dev.withReply_out (d : Dev) (x : Xact) (sd : Dev) (st : Byte) (p : List Word) : (d.withReply x sd st p).out = d.out := rfl
@[simp] theorem Dev.withReply_eu (d : Dev) (x : Xact) (sd : Dev) (st : Byte) (p : List Word) :
    (d.withReply x sd st p).eu =
      { d.eu with reply := some ⟨requestBytes x + sd.eu.waitBytes.toNat, tagByteOf x, st, p⟩ } := rfl

/-! ### endCycle: the management plane's queue, EVENT_LOST, STATE_SEQ and OVERFLOW_SEEN, and DRAM -/

@[simp] theorem endCycle_ctl (a b : Dev) : (endCycle a b).ctl = b.ctl := rfl
@[simp] theorem endCycle_clk (a b : Dev) : (endCycle a b).clk = b.clk := rfl
@[simp] theorem endCycle_ident (a b : Dev) : (endCycle a b).ident = b.ident := rfl
@[simp] theorem endCycle_fa (a b : Dev) : (endCycle a b).fa = b.fa := rfl
@[simp] theorem endCycle_fb (a b : Dev) : (endCycle a b).fb = b.fb := rfl
@[simp] theorem endCycle_reg (a b : Dev) : (endCycle a b).reg = b.reg := rfl
@[simp] theorem endCycle_ce (a b : Dev) : (endCycle a b).ce = b.ce := rfl
@[simp] theorem endCycle_mc (a b : Dev) : (endCycle a b).mc = b.mc := rfl
@[simp] theorem endCycle_dcfg (a b : Dev) : (endCycle a b).dcfg = b.dcfg := rfl
@[simp] theorem endCycle_img (a b : Dev) : (endCycle a b).img = b.img := rfl
@[simp] theorem endCycle_cip (a b : Dev) : (endCycle a b).cip = b.cip := rfl
@[simp] theorem endCycle_rail (a b : Dev) : (endCycle a b).rail = b.rail := rfl
@[simp] theorem endCycle_adc (a b : Dev) : (endCycle a b).adc = b.adc := rfl
@[simp] theorem endCycle_egy (a b : Dev) : (endCycle a b).egy = b.egy := rfl
@[simp] theorem endCycle_adm (a b : Dev) : (endCycle a b).adm = b.adm := rfl
@[simp] theorem endCycle_sav (a b : Dev) : (endCycle a b).sav = b.sav := rfl
@[simp] theorem endCycle_rst (a b : Dev) : (endCycle a b).rst = b.rst := rfl
@[simp] theorem endCycle_herd (a b : Dev) : (endCycle a b).herd = b.herd := rfl
@[simp] theorem endCycle_roo (a b : Dev) : (endCycle a b).roo = b.roo := rfl
@[simp] theorem endCycle_therm (a b : Dev) : (endCycle a b).therm = b.therm := rfl
@[simp] theorem endCycle_tasks (a b : Dev) : (endCycle a b).tasks = b.tasks := rfl
@[simp] theorem endCycle_jtag (a b : Dev) : (endCycle a b).jtag = b.jtag := rfl
@[simp] theorem endCycle_free (a b : Dev) : (endCycle a b).free = b.free := rfl
@[simp] theorem endCycle_out (a b : Dev) : (endCycle a b).out = Outbox.none := rfl
@[simp] theorem endCycle_mem (a b : Dev) : (endCycle a b).mem = endMem a b := rfl
@[simp] theorem endCycle_eu_waitBytes (a b : Dev) : (endCycle a b).eu.waitBytes = b.eu.waitBytes := rfl
@[simp] theorem endCycle_eu_locked (a b : Dev) : (endCycle a b).eu.locked = b.eu.locked := rfl
@[simp] theorem endCycle_eu_held (a b : Dev) : (endCycle a b).eu.held = b.eu.held := rfl
@[simp] theorem endCycle_eu_syncErrors (a b : Dev) : (endCycle a b).eu.syncErrors = b.eu.syncErrors := rfl
@[simp] theorem endCycle_eu_crcErrors (a b : Dev) : (endCycle a b).eu.crcErrors = b.eu.crcErrors := rfl
@[simp] theorem endCycle_eu_abandoned (a b : Dev) : (endCycle a b).eu.abandoned = b.eu.abandoned := rfl
@[simp] theorem endCycle_eu_domainFaultSeen (a b : Dev) : (endCycle a b).eu.domainFaultSeen = b.eu.domainFaultSeen := rfl
@[simp] theorem endCycle_eu_refclkLostSeen (a b : Dev) : (endCycle a b).eu.refclkLostSeen = b.eu.refclkLostSeen := rfl
@[simp] theorem endCycle_eu_hoscDriftSeen (a b : Dev) : (endCycle a b).eu.hoscDriftSeen = b.eu.hoscDriftSeen := rfl
@[simp] theorem endCycle_eu_scratch (a b : Dev) : (endCycle a b).eu.scratch = b.eu.scratch := rfl
@[simp] theorem endCycle_eu_reply (a b : Dev) : (endCycle a b).eu.reply = b.eu.reply := rfl
@[simp] theorem endCycle_eu_queue (a b : Dev) : (endCycle a b).eu.queue = (endQueue a b).1 := rfl
@[simp] theorem endCycle_eu_lost (a b : Dev) : (endCycle a b).eu.lost = (endQueue a b).2 := rfl
@[simp] theorem endCycle_eu_stateSeq (a b : Dev) : (endCycle a b).eu.stateSeq = endSeq a b := rfl

/-! ### endCommit: as endCycle, but for the places of the cycle's events and STATE_SEQ -/

@[simp] theorem endCommit_ctl (z : Option Dev) (a b : Dev) : (endCommit z a b).ctl = b.ctl := by cases z <;> rfl
@[simp] theorem endCommit_clk (z : Option Dev) (a b : Dev) : (endCommit z a b).clk = b.clk := by cases z <;> rfl
@[simp] theorem endCommit_ident (z : Option Dev) (a b : Dev) : (endCommit z a b).ident = b.ident := by cases z <;> rfl
@[simp] theorem endCommit_fa (z : Option Dev) (a b : Dev) : (endCommit z a b).fa = b.fa := by cases z <;> rfl
@[simp] theorem endCommit_fb (z : Option Dev) (a b : Dev) : (endCommit z a b).fb = b.fb := by cases z <;> rfl
@[simp] theorem endCommit_reg (z : Option Dev) (a b : Dev) : (endCommit z a b).reg = b.reg := by cases z <;> rfl
@[simp] theorem endCommit_ce (z : Option Dev) (a b : Dev) : (endCommit z a b).ce = b.ce := by cases z <;> rfl
@[simp] theorem endCommit_mc (z : Option Dev) (a b : Dev) : (endCommit z a b).mc = b.mc := by cases z <;> rfl
@[simp] theorem endCommit_dcfg (z : Option Dev) (a b : Dev) : (endCommit z a b).dcfg = b.dcfg := by cases z <;> rfl
@[simp] theorem endCommit_img (z : Option Dev) (a b : Dev) : (endCommit z a b).img = b.img := by cases z <;> rfl
@[simp] theorem endCommit_cip (z : Option Dev) (a b : Dev) : (endCommit z a b).cip = b.cip := by cases z <;> rfl
@[simp] theorem endCommit_rail (z : Option Dev) (a b : Dev) : (endCommit z a b).rail = b.rail := by cases z <;> rfl
@[simp] theorem endCommit_adc (z : Option Dev) (a b : Dev) : (endCommit z a b).adc = b.adc := by cases z <;> rfl
@[simp] theorem endCommit_egy (z : Option Dev) (a b : Dev) : (endCommit z a b).egy = b.egy := by cases z <;> rfl
@[simp] theorem endCommit_adm (z : Option Dev) (a b : Dev) : (endCommit z a b).adm = b.adm := by cases z <;> rfl
@[simp] theorem endCommit_sav (z : Option Dev) (a b : Dev) : (endCommit z a b).sav = b.sav := by cases z <;> rfl
@[simp] theorem endCommit_rst (z : Option Dev) (a b : Dev) : (endCommit z a b).rst = b.rst := by cases z <;> rfl
@[simp] theorem endCommit_herd (z : Option Dev) (a b : Dev) : (endCommit z a b).herd = b.herd := by cases z <;> rfl
@[simp] theorem endCommit_roo (z : Option Dev) (a b : Dev) : (endCommit z a b).roo = b.roo := by cases z <;> rfl
@[simp] theorem endCommit_therm (z : Option Dev) (a b : Dev) : (endCommit z a b).therm = b.therm := by cases z <;> rfl
@[simp] theorem endCommit_tasks (z : Option Dev) (a b : Dev) : (endCommit z a b).tasks = b.tasks := by cases z <;> rfl
@[simp] theorem endCommit_jtag (z : Option Dev) (a b : Dev) : (endCommit z a b).jtag = b.jtag := by cases z <;> rfl
@[simp] theorem endCommit_free (z : Option Dev) (a b : Dev) : (endCommit z a b).free = b.free := by cases z <;> rfl
@[simp] theorem endCommit_out (z : Option Dev) (a b : Dev) : (endCommit z a b).out = Outbox.none := by cases z <;> rfl
@[simp] theorem endCommit_mem (z : Option Dev) (a b : Dev) : (endCommit z a b).mem = endMem a b := by cases z <;> rfl
@[simp] theorem endCommit_eu_waitBytes (z : Option Dev) (a b : Dev) : (endCommit z a b).eu.waitBytes = b.eu.waitBytes := by cases z <;> rfl
@[simp] theorem endCommit_eu_locked (z : Option Dev) (a b : Dev) : (endCommit z a b).eu.locked = b.eu.locked := by cases z <;> rfl
@[simp] theorem endCommit_eu_held (z : Option Dev) (a b : Dev) : (endCommit z a b).eu.held = b.eu.held := by cases z <;> rfl
@[simp] theorem endCommit_eu_syncErrors (z : Option Dev) (a b : Dev) : (endCommit z a b).eu.syncErrors = b.eu.syncErrors := by cases z <;> rfl
@[simp] theorem endCommit_eu_crcErrors (z : Option Dev) (a b : Dev) : (endCommit z a b).eu.crcErrors = b.eu.crcErrors := by cases z <;> rfl
@[simp] theorem endCommit_eu_abandoned (z : Option Dev) (a b : Dev) : (endCommit z a b).eu.abandoned = b.eu.abandoned := by cases z <;> rfl
@[simp] theorem endCommit_eu_domainFaultSeen (z : Option Dev) (a b : Dev) : (endCommit z a b).eu.domainFaultSeen = b.eu.domainFaultSeen := by cases z <;> rfl
@[simp] theorem endCommit_eu_refclkLostSeen (z : Option Dev) (a b : Dev) : (endCommit z a b).eu.refclkLostSeen = b.eu.refclkLostSeen := by cases z <;> rfl
@[simp] theorem endCommit_eu_hoscDriftSeen (z : Option Dev) (a b : Dev) : (endCommit z a b).eu.hoscDriftSeen = b.eu.hoscDriftSeen := by cases z <;> rfl
@[simp] theorem endCommit_eu_scratch (z : Option Dev) (a b : Dev) : (endCommit z a b).eu.scratch = b.eu.scratch := by cases z <;> rfl
@[simp] theorem endCommit_eu_reply (z : Option Dev) (a b : Dev) : (endCommit z a b).eu.reply = b.eu.reply := by cases z <;> rfl
@[simp] theorem endCommit_eu_lost (z : Option Dev) (a b : Dev) : (endCommit z a b).eu.lost = (endQueue a b).2 := by cases z <;> rfl

end Sys2Proof.Machine
end

