-- ==== Sys2Proof/Laws/Hen.lean ====
section
/-! SUPPORT. What refresh, self-refresh, a change of data rate and a clock switch leave unchanged: everything but the channels, the
periodic tasks and the events of the cycle. -/
namespace Sys2Proof.Machine
open Sys2Proof

/-- `b` differs from `a` only in its channels, its periodic tasks and events raised. -/
structure HenKeeps (a b : Dev) : Prop where
  rest : { b with mc := a.mc, tasks := a.tasks, out := a.out } = a
  out : { b.out with events := [] } = { a.out with events := [] }
  ev : a.out.events <+: b.out.events

theorem HenKeeps.refl (a : Dev) : HenKeeps a a := ⟨rfl, rfl, List.prefix_rfl⟩

theorem HenKeeps.trans {a b c : Dev} (h : HenKeeps a b) (k : HenKeeps b c) : HenKeeps a c := by
  refine ⟨?_, k.out.trans h.out, h.ev.trans k.ev⟩
  have e := congrArg (fun d : Dev => { d with mc := a.mc, tasks := a.tasks, out := a.out }) k.rest
  exact e.trans h.rest

theorem HenKeeps.ite {p : Prop} [Decidable p] {d a b : Dev} (h : HenKeeps d a) (k : HenKeeps d b) : HenKeeps d (if p then a else b) := by
  split
  · exact h
  · exact k

theorem HenKeeps.foldl {α : Type} (f : Dev → α → Dev) (hf : ∀ d x, HenKeeps d (f d x)) (l : List α) (d : Dev) : HenKeeps d (l.foldl f d) := by
  induction l generalizing d with
  | nil => exact .refl d
  | cons x t ih => exact (hf d x).trans (ih _)

theorem onChan_hen (d : Dev) (c : Nat) (f : Mc → Mc) : HenKeeps d (d.onChan c f) := ⟨rfl, rfl, List.prefix_rfl⟩
theorem onTask_hen (d : Dev) (t : Nat) (f : Task → Task) : HenKeeps d (d.onTask t f) := ⟨rfl, rfl, List.prefix_rfl⟩
theorem emit_hen (d : Dev) (c v : Nat) : HenKeeps d (d.emit c v) := ⟨rfl, rfl, List.prefix_append _ _⟩

theorem taskBehind_hen (d : Dev) (t : Nat) : HenKeeps d (d.taskBehind t) := by
  unfold Dev.taskBehind
  exact .ite (onTask_hen _ _ _) ((onTask_hen _ _ _).trans (emit_hen _ _ _))

theorem taskCaughtUp_hen (d : Dev) (t : Nat) : HenKeeps d (d.taskCaughtUp t) := by
  unfold Dev.taskCaughtUp
  exact .ite ((onTask_hen _ _ _).trans (emit_hen _ _ _)) (.refl d)

theorem payUnit_hen (d : Dev) (c r : Nat) : HenKeeps d (d.payUnit c r) := by
  unfold Dev.payUnit
  exact .ite ((onChan_hen _ _ _).trans (onTask_hen _ _ _)) (.ite ((onChan_hen _ _ _).trans (taskCaughtUp_hen _ _)) (onChan_hen _ _ _))

theorem oweUnit_hen (d : Dev) (c r : Nat) : HenKeeps d (d.oweUnit c r) := by
  unfold Dev.oweUnit
  exact .ite ((onChan_hen _ _ _).trans (taskBehind_hen _ _)) (onChan_hen _ _ _)

theorem payAll_hen (n : Nat) (d : Dev) (c r : Nat) : HenKeeps d (d.payAll c r n) := by
  induction n generalizing d with
  | zero => exact .refl d
  | succ n ih => exact ((onChan_hen _ _ _).trans (payUnit_hen _ _ _)).trans (ih _)

theorem payOwed_hen (d : Dev) (c : Nat) : HenKeeps d (d.payOwed c) := .foldl _ (fun d r => payAll_hen _ d c r) _ _

theorem chanSleep_hen (d : Dev) (c : Nat) : HenKeeps d (d.chanSleep c) := by
  unfold Dev.chanSleep
  exact .ite (((onChan_hen _ _ _).trans (payOwed_hen _ _)).trans (onChan_hen _ _ _)) (.refl d)

theorem chanWake_hen (d : Dev) (c : Nat) : HenKeeps d (d.chanWake c) := by
  unfold Dev.chanWake
  exact .ite (onChan_hen _ _ _) (.refl d)

theorem chanRate_hen (d : Dev) (c : Nat) (b : Bool) : HenKeeps d (d.chanRate c b) := by
  unfold Dev.chanRate
  refine .ite (.refl d) ?_
  have h : HenKeeps d ((d.chanSleep c).onChan c (fun m => { m with onPoint1 := b })) := (chanSleep_hen d c).trans (onChan_hen _ _ _)
  exact .ite h (h.trans (chanWake_hen _ _))

theorem onPoint1_hen (d : Dev) (b : Bool) : HenKeeps d (d.onPoint1 b) := .foldl _ (fun d c => chanRate_hen d c b) _ _
theorem allSleep_hen (d : Dev) : HenKeeps d d.allSleep := .foldl _ chanSleep_hen _ _
theorem allWake_hen (d : Dev) : HenKeeps d d.allWake := .foldl _ chanWake_hen _ _

/-- A clock switch changes the clock unit too. -/
theorem clkSwitch_hen (d : Dev) (hosc : Bool) :
    HenKeeps d { d.clkSwitch hosc with clk := d.clk } ∧ (d.clkSwitch hosc).clk = { d.clk with switching := true, target := hosc } := by
  have h := allSleep_hen d
  refine ⟨⟨?_, h.out, h.ev⟩, rfl⟩
  have e := congrArg (fun x : Dev => { x with clk := d.clk }) h.rest
  exact e

end Sys2Proof.Machine
end

