-- ==== Sys2Proof/Laws/Memory.lean ====
section
/-! SUPPORT. DRAM as canonical data: every operation keeps the form, a read after a write gives the value written, and a write
leaves every other byte alone. -/
namespace Sys2Proof.Machine
open Sys2Proof

/-- Every listed address is at least `lo`: what the induction over a canonical list carries. -/
theorem memWf_tail {c : Host.Cell} {t : List Host.Cell} (h : memWf (c :: t)) : memWf t :=
  ⟨(List.pairwise_cons.mp h.1).2, fun x hx => h.2 x (List.mem_cons_of_mem _ hx)⟩

theorem memWf_head {c : Host.Cell} {t : List Host.Cell} (h : memWf (c :: t)) : ∀ x ∈ t, c.1 < x.1 :=
  (List.pairwise_cons.mp h.1).1

theorem memWf_cons {c : Host.Cell} {t : List Host.Cell} (hz : c.2 ≠ 0) (hl : ∀ x ∈ t, c.1 < x.1) (h : memWf t) : memWf (c :: t) :=
  ⟨List.pairwise_cons.mpr ⟨hl, h.1⟩, fun x hx => by
    rcases List.mem_cons.mp hx with rfl | hx
    · exact hz
    · exact h.2 x hx⟩

/-- Where a write's cells come from. -/
theorem mem_memWrite {a : Nat} {v : Byte} {m : List Host.Cell} {x : Host.Cell} (h : x ∈ memWrite m a v) : x = (a, v) ∨ x ∈ m := by
  induction m with
  | nil =>
    simp only [memWrite] at h
    split at h <;> simp_all
  | cons c t ih =>
    obtain ⟨k, w⟩ := c
    simp only [memWrite] at h
    split at h
    · split at h
      · exact .inr h
      · rcases List.mem_cons.mp h with h | h
        · exact .inl h
        · exact .inr h
    · split at h
      · split at h
        · exact .inr (List.mem_cons_of_mem _ h)
        · rcases List.mem_cons.mp h with h | h
          · exact .inl h
          · exact .inr (List.mem_cons_of_mem _ h)
      · rcases List.mem_cons.mp h with h | h
        · exact .inr (h ▸ List.mem_cons_self ..)
        · rcases ih h with h | h
          · exact .inl h
          · exact .inr (List.mem_cons_of_mem _ h)

theorem memWrite_wf {m : List Host.Cell} (h : memWf m) (a : Nat) (v : Byte) : memWf (memWrite m a v) := by
  induction m with
  | nil =>
    simp only [memWrite]
    split
    · exact h
    · exact memWf_cons (by assumption) (by simp) h
  | cons c t ih =>
    obtain ⟨k, w⟩ := c
    have hw : w ≠ 0 := h.2 (k, w) (List.mem_cons_self ..)
    have hk := memWf_head h
    simp only [memWrite]
    split
    · rename_i hak
      split
      · exact h
      · refine memWf_cons (by assumption) (fun x hx => ?_) h
        rcases List.mem_cons.mp hx with rfl | hx
        · exact hak
        · exact Nat.lt_trans hak (hk x hx)
    · split
      · rename_i hak
        split
        · exact memWf_tail h
        · exact memWf_cons (by assumption) (fun x hx => hak ▸ hk x hx) (memWf_tail h)
      · refine memWf_cons hw (fun x hx => ?_) (ih (memWf_tail h))
        rcases mem_memWrite hx with rfl | hx
        · show k < a
          omega
        · exact hk x hx

theorem memZero_wf {m : List Host.Cell} (h : memWf m) (lo hi : Nat) : memWf (memZero m lo hi) :=
  ⟨h.1.sublist List.filter_sublist, fun x hx => h.2 x (List.mem_filter.mp hx).1⟩

theorem memApply_wf {m : List Host.Cell} (h : memWf m) (o : MemOp) : memWf (memApply m o) := by
  cases o with
  | write a v => exact memWrite_wf h a v
  | zero lo hi => exact memZero_wf h lo hi
  | clear => exact ⟨List.Pairwise.nil, by simp [memApply]⟩

/-- Every memory operation of a cycle's end keeps the canonical form. -/
theorem memFold_wf (l : List MemOp) {m : List Host.Cell} (h : memWf m) : memWf (l.foldl memApply m) := by
  induction l generalizing m with
  | nil => exact h
  | cons o t ih => exact ih (memApply_wf h o)

theorem endMem_wf {a b : Dev} (h : memWf a.mem) : memWf (endMem a b) := memFold_wf _ h

theorem endCycle_wf {a b : Dev} (h : memWf a.mem) : memWf (endCycle a b).mem := endMem_wf h

/-! ### Reads after writes -/

theorem memRead_nil (a : Nat) : memRead [] a = 0 := rfl

/-- A byte below every listed address reads zero. -/
theorem memRead_below {m : List Host.Cell} {a : Nat} (h : ∀ x ∈ m, a < x.1) : memRead m a = 0 := by
  induction m with
  | nil => rfl
  | cons c t ih =>
    have hc := h c (List.mem_cons_self ..)
    simp only [memRead]
    rw [if_neg (by omega), ih (fun x hx => h x (List.mem_cons_of_mem _ hx))]

theorem memRead_memWrite_other {m : List Host.Cell} {a b : Nat} (v : Byte) (h : b ≠ a) : memRead (memWrite m a v) b = memRead m b := by
  induction m with
  | nil =>
    simp only [memWrite]
    split
    · rfl
    · simp [memRead, Ne.symm h]
  | cons c t ih =>
    obtain ⟨k, w⟩ := c
    simp only [memWrite]
    split
    · split
      · rfl
      · simp [memRead, Ne.symm h]
    · split
      · rename_i hk
        split
        · simp [memRead, ← hk, Ne.symm h]
        · simp [memRead, ← hk, Ne.symm h]
      · simp only [memRead, ih]

theorem memRead_memWrite_same {m : List Host.Cell} (h : memWf m) (a : Nat) (v : Byte) : memRead (memWrite m a v) a = v := by
  induction m with
  | nil =>
    simp only [memWrite]
    split
    · simp_all [memRead]
    · simp [memRead]
  | cons c t ih =>
    obtain ⟨k, w⟩ := c
    have hk := memWf_head h
    simp only [memWrite]
    split
    · rename_i hak
      split
      · rename_i hv
        rw [hv]
        exact memRead_below (fun x hx => by
          rcases List.mem_cons.mp hx with rfl | hx
          · exact hak
          · exact Nat.lt_trans hak (hk x hx))
      · simp [memRead]
    · split
      · rename_i hak
        split
        · rename_i hv
          rw [hv]
          exact memRead_below (fun x hx => hak ▸ hk x hx)
        · simp [memRead]
      · rename_i h1 h2
        simp only [memRead]
        rw [if_neg (fun e => h2 e.symm), ih (memWf_tail h)]

theorem memRead_memZero_out {m : List Host.Cell} {lo hi a : Nat} (h : a < lo ∨ hi ≤ a) : memRead (memZero m lo hi) a = memRead m a := by
  induction m with
  | nil => rfl
  | cons c t ih =>
    obtain ⟨k, w⟩ := c
    simp only [memZero, List.filter_cons] at ih ⊢
    split
    · simp only [memRead, ih]
    · rename_i hk
      simp only [memRead, ih]
      split
      · simp_all
      · rfl

/-! ### The end of a cycle with no DRAM write -/

theorem endMem_of_none {a b : Dev} (h : b.out.mem = []) : endMem a b = a.mem := by simp [endMem, h]

end Sys2Proof.Machine
end

