-- ==== Sys2Proof/Laws/Mule.lean ====
section
/-! SUPPORT. What Mule's work of a cycle leaves unchanged: every unit but the image store, the SAVE and RESTORE in progress, the poison
table, Goat's commit request, a calibration's first point and the events of the cycle. -/
namespace Sys2Proof.Machine
open Sys2Proof

/-- The image store without what Mule's cycle may write. -/
def Img.still (i : Img) : Img :=
  { i with gmap := [], copies := [], ops := [], nextOp := 0, commitAsked := [], commit := none, batch := [], tokens := 0, trickled := 0
           trickleRun := false, flush := none, copyGen := 0, changed := false, relocs := [], erases := [], shareCredit := 0
           wroteHeader := false, seqReserve := 0, primary := { i.primary with next := 0 }, secondary := { i.secondary with next := 0 } }

/-- `b` differs from `a` only in what Mule's cycle may write. -/
structure MuleKeeps (a b : Dev) : Prop where
  eu : b.eu = a.eu
  ctl : b.ctl = a.ctl
  clk : b.clk = a.clk
  ident : b.ident = a.ident
  fa : b.fa = a.fa
  fb : b.fb = a.fb
  reg : b.reg = a.reg
  ce : b.ce = a.ce
  mc : b.mc = a.mc
  dcfg : b.dcfg = a.dcfg
  mem : b.mem = a.mem
  rail : b.rail = a.rail
  adc : b.adc = a.adc
  adm : b.adm = a.adm
  herd : b.herd = a.herd
  roo : b.roo = a.roo
  therm : b.therm = a.therm
  tasks : b.tasks = a.tasks
  jtag : b.jtag = a.jtag
  free : b.free = a.free
  img : b.img.still = a.img.still
  cip : { b.cip with goat := none, poison := [] } = { a.cip with goat := none, poison := [] }
  egy : { b.egy with cal1 := none } = { a.egy with cal1 := none }
  rst : { b.rst with flight := [] } = { a.rst with flight := [] }
  sav : { b.sav with taken := 0, short := none, phase := 0, finished := 0, programmed := 0, markerGen := 0, again := [] }
      = { a.sav with taken := 0, short := none, phase := 0, finished := 0, programmed := 0, markerGen := 0, again := [] }
  out : { b.out with events := [] } = { a.out with events := [] }
  ev : a.out.events <+: b.out.events

theorem MuleKeeps.refl (a : Dev) : MuleKeeps a a := by constructor <;> first | rfl | exact List.prefix_rfl | exact List.prefix_append _ _

theorem MuleKeeps.trans {a b c : Dev} (h : MuleKeeps a b) (k : MuleKeeps b c) : MuleKeeps a c :=
  ⟨k.eu.trans h.eu, k.ctl.trans h.ctl, k.clk.trans h.clk, k.ident.trans h.ident, k.fa.trans h.fa, k.fb.trans h.fb, k.reg.trans h.reg, k.ce.trans h.ce, k.mc.trans h.mc, k.dcfg.trans h.dcfg, k.mem.trans h.mem, k.rail.trans h.rail, k.adc.trans h.adc, k.adm.trans h.adm, k.herd.trans h.herd, k.roo.trans h.roo, k.therm.trans h.therm, k.tasks.trans h.tasks, k.jtag.trans h.jtag, k.free.trans h.free, k.img.trans h.img, k.cip.trans h.cip, k.egy.trans h.egy, k.rst.trans h.rst, k.sav.trans h.sav, k.out.trans h.out, h.ev.trans k.ev⟩

theorem MuleKeeps.foldl {α : Type} (f : Dev → α → Dev) (hf : ∀ d x, MuleKeeps d (f d x)) (l : List α) (d : Dev) :
    MuleKeeps d (l.foldl f d) := by
  induction l generalizing d with
  | nil => exact .refl d
  | cons x t ih => exact (hf d x).trans (ih _)

/-! ### The functions of the cycle, in the order they are built -/

theorem ite_keeps {p : Prop} [Decidable p] {d a b : Dev} (h : MuleKeeps d a) (k : MuleKeeps d b) : MuleKeeps d (if p then a else b) := by
  split
  · exact h
  · exact k
theorem withImg_keeps (d : Dev) (i : Img) (h : i.still = d.img.still) : MuleKeeps d { d with img := i } :=
  ⟨rfl, rfl, rfl, rfl, rfl, rfl, rfl, rfl, rfl, rfl, rfl, rfl, rfl, rfl, rfl, rfl, rfl, rfl, rfl, rfl, h, rfl, rfl, rfl, rfl, rfl, List.prefix_rfl⟩
theorem emit_keeps (d : Dev) (c v : Nat) : MuleKeeps d (d.emit c v) := by constructor <;> first | rfl | exact List.prefix_rfl | exact List.prefix_append _ _
theorem emitAt_keeps (d : Dev) (k c v : Nat) : MuleKeeps d (d.emitAt k c v) := by constructor <;> first | rfl | exact List.prefix_rfl | exact List.prefix_append _ _
theorem startOp_keeps (d : Dev) (o : FlashOp) : MuleKeeps d (d.startOp o) := by constructor <;> first | rfl | exact List.prefix_rfl | exact List.prefix_append _ _
theorem onCopy_keeps (d : Dev) (id : Nat) (f : Copy → Copy) : MuleKeeps d (d.onCopy id f) := by constructor <;> first | rfl | exact List.prefix_rfl | exact List.prefix_append _ _
theorem endCopy_keeps (d : Dev) (id : Nat) : MuleKeeps d (d.endCopy id) := by constructor <;> first | rfl | exact List.prefix_rfl | exact List.prefix_append _ _
theorem onEntry_keeps (d : Dev) (g : Nat) (f : GEntry → GEntry) : MuleKeeps d (d.onEntry g f) := by
  unfold Dev.onEntry
  constructor <;> first | rfl | exact List.prefix_rfl | exact List.prefix_append _ _
theorem setDirty_keeps (d : Dev) (g : Nat) : MuleKeeps d (d.setDirty g) := onEntry_keeps _ _ _

theorem saveCount_keeps (d : Dev) (n : Nat) : MuleKeeps d (d.saveCount n) := by
  unfold Dev.saveCount
  split
  · constructor <;> first | rfl | exact List.prefix_rfl | exact List.prefix_append _ _
  · exact .refl d

theorem calFirst_keeps (d : Dev) : MuleKeeps d d.calFirst := by
  unfold Dev.calFirst
  split
  · constructor <;> first | rfl | exact List.prefix_rfl | exact List.prefix_append _ _
  · exact .refl d

theorem dropCopy_keeps (d : Dev) (c : Copy) : MuleKeeps d (d.dropCopy c) := by
  unfold Dev.dropCopy
  split
  · split
    · exact (endCopy_keeps _ _).trans (setDirty_keeps _ _)
    · exact endCopy_keeps _ _
  · exact endCopy_keeps _ _

theorem takeCopy_keeps (d : Dev) (id : Nat) : MuleKeeps d (d.takeCopy id) := by
  unfold Dev.takeCopy
  split
  · split
    · exact .refl d
    · exact (onCopy_keeps _ _ _).trans (onEntry_keeps _ _ _)
  · exact .refl d

theorem ringNext_keeps (d : Dev) (primary : Bool) (n : Nat) : MuleKeeps d (d.onRing primary (fun r => { r with next := n })) := by
  cases primary <;> exact withImg_keeps d _ rfl

theorem startHeader_keeps (d : Dev) (primary : Bool) (op : FlashOp) : MuleKeeps d (d.startHeader primary op) := by
  unfold Dev.startHeader
  refine ite_keeps (.refl d) ?_
  dsimp only
  refine MuleKeeps.trans ?_ (startOp_keeps _ _)
  refine ite_keeps ?_ (ringNext_keeps _ _ _)
  exact (ringNext_keeps d primary _).trans (withImg_keeps _ _ rfl)

theorem reserve_keeps (d : Dev) : MuleKeeps d d.reserve := by
  unfold Dev.reserve
  exact ite_keeps (.refl d) (startHeader_keeps _ _ _)

theorem programCopy_keeps (d : Dev) (c : Copy) : MuleKeeps d (d.programCopy c) := by
  unfold Dev.programCopy
  split
  · exact reserve_keeps d
  · split
    · exact .refl d
    · have h : ∀ e : Dev, MuleKeeps e (if e.reserveDue then { e with img := { e.img with commitAsked := e.img.commitAsked ++ [5] } } else e) := by
        intro e
        split
        · exact withImg_keeps e _ rfl
        · exact .refl e
      exact (((withImg_keeps d { d.img with copyGen := d.img.copyGen + 1 } rfl).trans (onCopy_keeps _ _ _)).trans (calFirst_keeps _)).trans (h _)

theorem copyRead_keeps (d : Dev) (c : Copy) (j : Job) : MuleKeeps d (d.copyRead c j) := by
  unfold Dev.copyRead
  dsimp only
  split
  · exact endCopy_keeps _ _
  · split
    · exact dropCopy_keeps _ _
    · split
      · exact ((endCopy_keeps d c.id).trans (onEntry_keeps _ _ _)).trans (saveCount_keeps _ 0)
      · exact (onCopy_keeps _ _ _).trans (programCopy_keeps _ _)

theorem newCopy_keeps (d : Dev) (g p : Nat) (a : Word) : MuleKeeps d (d.newCopy g p a) := by
  unfold Dev.newCopy
  generalize granuleBursts g = all
  dsimp only
  generalize (if d.mc.any (·.offline) then all.filter (fun b => !(d.chan (d.channelOf b)).offline) else all) = online
  split
  · refine MuleKeeps.trans ?_ (copyRead_keeps _ _ _)
    refine MuleKeeps.trans ?_ (takeCopy_keeps _ _)
    exact withImg_keeps d _ rfl
  · constructor <;> first | rfl | exact List.prefix_rfl | exact List.prefix_append _ _

theorem programAll_keeps (d : Dev) : MuleKeeps d d.programAll := MuleKeeps.foldl _ programCopy_keeps _ _

theorem mapPrograms_keeps (n : Nat) (d : Dev) (pages : List FPage) (acc : List Word) : MuleKeeps d (Dev.mapPrograms n d pages acc).1 := by
  induction n generalizing d pages acc with
  | zero => exact .refl d
  | succ n ih =>
    unfold Dev.mapPrograms
    split
    · exact (startOp_keeps _ _).trans (ih _ _ _)
    · exact .refl d

theorem commitMapPhase_keeps (d : Dev) (c : Nat) : MuleKeeps d (d.commitMapPhase c) := by
  unfold Dev.commitMapPhase
  dsimp only
  split
  · constructor <;> first | rfl | exact List.prefix_rfl | exact List.prefix_append _ _
  · exact (mapPrograms_keeps _ d _ []).trans (by constructor <;> first | rfl | exact List.prefix_rfl | exact List.prefix_append _ _)

theorem savePhase_keeps (d : Dev) (p : BitVec 3) : MuleKeeps d (d.savePhase p) := by constructor <;> first | rfl | exact List.prefix_rfl | exact List.prefix_append _ _

theorem commitStep_keeps (d : Dev) : MuleKeeps d d.commitStep := by
  unfold Dev.commitStep
  split
  · exact .refl d
  · refine ite_keeps (.refl d) (ite_keeps ?_ (ite_keeps ?_ (.refl d)))
    · exact ite_keeps (.refl d) (ite_keeps (reserve_keeps d) (commitMapPhase_keeps _ _))
    · refine MuleKeeps.trans ?_ (startHeader_keeps _ _ _)
      refine MuleKeeps.trans ?_ (withImg_keeps _ _ rfl)
      exact ite_keeps (savePhase_keeps _ _) (.refl d)

theorem commitNext_keeps (d : Dev) : MuleKeeps d d.commitNext := by
  unfold Dev.commitNext
  split
  · split
    · exact .refl d
    · refine MuleKeeps.trans ?_ (commitStep_keeps _)
      refine MuleKeeps.trans ?_ (commitStep_keeps _)
      exact withImg_keeps d _ rfl
  · exact (commitStep_keeps _).trans (commitStep_keeps _)

theorem askCommit_keeps (d : Dev) (c : Nat) : MuleKeeps d (d.askCommit c) := by
  unfold Dev.askCommit
  split
  · exact commitNext_keeps d
  · refine MuleKeeps.trans ?_ (commitNext_keeps _)
    exact withImg_keeps d _ rfl

theorem startMarker_keeps (d : Dev) : MuleKeeps d d.startMarker := by
  unfold Dev.startMarker
  have h : MuleKeeps d { d with sav := { d.sav with markerGen := d.img.generation + 1 } } := by constructor <;> first | rfl | exact List.prefix_rfl | exact List.prefix_append _ _
  exact (h.trans (startHeader_keeps _ _ _)).trans (startHeader_keeps _ _ _)

theorem markerStep_keeps (d : Dev) : MuleKeeps d d.markerStep := by
  unfold Dev.markerStep
  split
  · refine MuleKeeps.trans ?_ (savePhase_keeps _ _)
    refine MuleKeeps.trans ?_ (programAll_keeps _)
    exact withImg_keeps d _ rfl
  · exact .refl d

theorem saveFill_keeps (n : Nat) (d : Dev) : MuleKeeps d (Dev.saveFill n d) := by
  induction n generalizing d with
  | zero => exact .refl d
  | succ n ih =>
    unfold Dev.saveFill
    split
    · exact .refl d
    · split
      · exact .refl d
      · split
        · constructor <;> first | rfl | exact List.prefix_rfl | exact List.prefix_append _ _
        · split
          · constructor <;> first | rfl | exact List.prefix_rfl | exact List.prefix_append _ _
          · split
            · refine MuleKeeps.trans ?_ (ih _)
              refine MuleKeeps.trans ?_ (newCopy_keeps _ _ _ _)
              constructor <;> first | rfl | exact List.prefix_rfl | exact List.prefix_append _ _
            · exact .refl d

theorem savePhase3End_keeps (d : Dev) : MuleKeeps d d.savePhase3End := by
  unfold Dev.savePhase3End
  split
  · have h : MuleKeeps d (match d.sav.short with
        | some r => d.emitAt 0x0113 0x0115 (packBytes [(1, r), (4, d.dirtyTotal)])
        | none => d) := by
      split
      · exact emitAt_keeps _ _ _ _
      · exact .refl d
    exact ((h.trans (savePhase_keeps _ 4)).trans (commitMapPhase_keeps _ 2)).trans (commitStep_keeps _)
  · exact .refl d

theorem saveStep_keeps (d : Dev) : MuleKeeps d d.saveStep := by
  unfold Dev.saveStep
  refine ite_keeps (.refl d) ?_
  dsimp only
  have h : MuleKeeps d (if d.sav.phase ≠ 2 then d else if d.sav.markerGen ≠ 0 then d.markerStep
      else if d.img.commit.isNone && d.img.commitAsked.isEmpty then d.startMarker else d) :=
    ite_keeps (.refl d) (ite_keeps (markerStep_keeps d) (ite_keeps (startMarker_keeps d) (.refl d)))
  refine h.trans ?_
  exact ite_keeps ((saveFill_keeps _ _).trans (savePhase3End_keeps _)) (.refl _)

theorem trickleFill_keeps (n : Nat) (d : Dev) : MuleKeeps d (Dev.trickleFill n d) := by
  induction n generalizing d with
  | zero => exact .refl d
  | succ n ih =>
    unfold Dev.trickleFill
    refine ite_keeps (.refl d) ?_
    split
    · exact .refl d
    · split
      · refine MuleKeeps.trans ?_ (ih _)
        exact withImg_keeps d _ rfl
      · split
        · refine MuleKeeps.trans ?_ (ih _)
          refine MuleKeeps.trans ?_ (newCopy_keeps _ _ _ _)
          exact withImg_keeps d _ rfl
        · exact .refl d

theorem trickleStep_keeps (d : Dev) : MuleKeeps d d.trickleStep := by
  unfold Dev.trickleStep
  dsimp only
  have h : MuleKeeps d (if d.img.wearLimited then { d with img := { d.img with batch := [] } } else Dev.trickleFill 4096 d) :=
    ite_keeps (withImg_keeps d _ rfl) (trickleFill_keeps _ _)
  refine h.trans ?_
  exact ite_keeps (withImg_keeps _ _ rfl) (.refl _)

theorem flushFill_keeps (l : List Nat) (d : Dev) : MuleKeeps d (Dev.flushFill l d) := by
  induction l generalizing d with
  | nil => exact .refl d
  | cons g t ih =>
    unfold Dev.flushFill
    dsimp only
    refine ite_keeps (ih d) (ite_keeps ?_ ?_)
    · refine MuleKeeps.trans ?_ (ih _)
      exact withImg_keeps d _ rfl
    · split
      · refine MuleKeeps.trans ?_ (ih _)
        refine MuleKeeps.trans ?_ (newCopy_keeps _ _ _ _)
        exact withImg_keeps d _ rfl
      · exact .refl d

theorem flushStep_keeps (d : Dev) : MuleKeeps d d.flushStep := by
  unfold Dev.flushStep
  exact ite_keeps ((flushFill_keeps _ _).trans (askCommit_keeps _ _)) (flushFill_keeps _ _)

theorem badPages_keeps (d : Dev) (a : Word) (k : Nat) (b : List Nat) : MuleKeeps d (d.badPages a k b) :=
  MuleKeeps.foldl _ (fun d _ => emit_keeps d _ _) _ _

theorem poison_keeps (d : Dev) (g : Nat) : MuleKeeps d (d.poison g) := by
  unfold Dev.poison
  repeat' split
  all_goals first | exact .refl _ | (constructor <;> first | rfl | exact List.prefix_rfl | exact List.prefix_append _ _)

theorem restoreData_keeps (d : Dev) (g : Nat) (bad : List Nat) (altered : List SectorRead) : MuleKeeps d (d.restoreData g bad altered) := by
  unfold Dev.restoreData
  have h : MuleKeeps (d.badPages (d.entry g).slot 1 bad)
      (if (d.entry g).taint || !bad.isEmpty then (d.badPages (d.entry g).slot 1 bad).poison g else d.badPages (d.entry g).slot 1 bad) :=
    ite_keeps (poison_keeps _ _) (.refl _)
  exact (badPages_keeps d _ 1 bad).trans (h.trans (by constructor <;> first | rfl | exact List.prefix_rfl | exact List.prefix_append _ _))

theorem restoreFill_keeps (n : Nat) (d : Dev) : MuleKeeps d (Dev.restoreFill n d) := by
  induction n generalizing d with
  | zero => exact .refl d
  | succ n ih =>
    unfold Dev.restoreFill
    split
    · refine MuleKeeps.trans ?_ (ih _)
      split
      · exact restoreData_keeps _ _ _ _
      · exact startOp_keeps _ _
    · exact .refl d

theorem sweepStopped_keeps (d : Dev) : MuleKeeps d d.sweepStopped :=
  MuleKeeps.foldl _ (fun d c => ite_keeps (endCopy_keeps d c.id) (dropCopy_keeps d c)) _ _

theorem goatFinish_keeps (d : Dev) : MuleKeeps d d.goatFinish := by
  unfold Dev.goatFinish
  split
  · refine ite_keeps ?_ (.refl d)
    refine MuleKeeps.trans ?_ (askCommit_keeps _ _)
    constructor <;> first | rfl | exact List.prefix_rfl | exact List.prefix_append _ _
  · exact .refl d

theorem withRelocs_keeps (d : Dev) (l : List Reloc) : MuleKeeps d { d with img := { d.img with relocs := l } } := withImg_keeps d _ rfl

theorem moveSlot_keeps (d : Dev) (slot a : Word) : MuleKeeps d (d.moveSlot slot a) := by
  have h : MuleKeeps d d.shareTaken := ite_keeps (withImg_keeps d _ rfl) (.refl d)
  refine h.trans ?_
  exact withImg_keeps _ _ rfl

theorem relocStep_keeps (d : Dev) : MuleKeeps d d.relocStep := by
  unfold Dev.relocStep
  dsimp only
  refine (withRelocs_keeps d _).trans (ite_keeps (.refl _) ?_)
  split
  · exact .refl _
  · refine ite_keeps (startOp_keeps _ _) (ite_keeps (.refl _) ?_)
    split
    · exact moveSlot_keeps _ _ _
    · exact .refl _

theorem eraseStep_keeps (d : Dev) : MuleKeeps d d.eraseStep := by
  unfold Dev.eraseStep
  exact ite_keeps (.refl d) (withImg_keeps d _ rfl)

/-- Everything Mule's cycle can do. -/
theorem muleCycle_keeps (d : Dev) : MuleKeeps d d.muleCycle := by
  unfold Dev.muleCycle
  refine (sweepStopped_keeps d).trans ?_
  generalize d.sweepStopped = d
  dsimp only
  split
  · exact ite_keeps ((commitNext_keeps d).trans (saveStep_keeps _)) (.refl d)
  · split
    · exact .refl d
    · exact restoreFill_keeps _ _
  · split
    · exact .refl d
    · refine (goatFinish_keeps d).trans ?_
      generalize d.goatFinish = d
      have h1 : MuleKeeps d (if d.img.trickleRun then d.trickleStep else d) := by
        split
        · exact trickleStep_keeps d
        · exact .refl d
      refine h1.trans ?_
      generalize (if d.img.trickleRun then d.trickleStep else d) = d
      have h2 : MuleKeeps d (if d.img.flush.isSome then d.flushStep else d) := by
        split
        · exact flushStep_keeps d
        · exact .refl d
      refine h2.trans ?_
      generalize (if d.img.flush.isSome then d.flushStep else d) = d
      refine ((relocStep_keeps d).trans (eraseStep_keeps _)).trans ?_
      exact ite_keeps (.refl _) (commitNext_keeps _)
  · exact ite_keeps (.refl d) (relocStep_keeps d)
  · exact .refl d

end Sys2Proof.Machine
end

