-- ==== Sys2Proof/Laws/Cycle.lean ====
section
/-! SUPPORT. What the work of every cycle leaves unchanged after a happening: in every state, and where no RESTORE ends in the cycle. -/
namespace Sys2Proof.Machine
open Sys2Proof

/-- A task without its anchor. -/
def Task.still (t : Task) : Task := { t with anchor := none }

/-- `b` differs from `a` only in what the work of a cycle may write in any state. -/
structure CycleAll (a b : Dev) : Prop where
  eu : b.eu = a.eu
  ident : b.ident = a.ident
  dcfg : b.dcfg = a.dcfg
  mem : b.mem = a.mem
  rail : b.rail = a.rail
  adc : b.adc = a.adc
  roo : b.roo = a.roo
  therm : b.therm = a.therm
  jtag : b.jtag = a.jtag
  free : b.free = a.free
  fa : { b.fa with inflight := [], cq := [] } = { a.fa with inflight := [], cq := [] }
  fb : { b.fb with inflight := [], cq := [] } = { a.fb with inflight := [], cq := [] }
  reg : { b.reg with reported := 0 } = { a.reg with reported := 0 }
  adm : { b.adm with holding := false, holdCount := 0, overLim := false } = { a.adm with holding := false, holdCount := 0, overLim := false }
  herd : { b.herd with pulling := false } = { a.herd with pulling := false }
  cip : { b.cip with goat := none, poison := [] } = { a.cip with goat := none, poison := [] }
  egy : { b.egy with cal1 := none } = { a.egy with cal1 := none }
  sav : { b.sav with taken := 0, short := none, phase := 0, finished := 0, programmed := 0, markerGen := 0, again := [] }
      = { a.sav with taken := 0, short := none, phase := 0, finished := 0, programmed := 0, markerGen := 0, again := [] }
  out : { b.out with events := [] } = { a.out with events := [] }
  ctlAll : { b.ctl with mode := .operate, entry := none, entrySwitching := false } = { a.ctl with mode := .operate, entry := none, entrySwitching := false }
  clkAll : { b.clk with switching := false, target := false } = { a.clk with switching := false, target := false }
  ev : a.out.events <+: b.out.events
  imgAll : { b.img.still with flags := 0 } = { a.img.still with flags := 0 }

/-- And where no RESTORE ends in the cycle. -/
structure CycleKeeps (a b : Dev) : Prop extends CycleAll a b where
  ctl : b.ctl = a.ctl
  clk : b.clk = a.clk
  tasks : b.tasks.map Task.still = a.tasks.map Task.still
  ce : b.ce = a.ce
  mc : b.mc = a.mc
  img : b.img.still = a.img.still
  rst : { b.rst with flight := [] } = { a.rst with flight := [] }

theorem CycleAll.trans {a b c : Dev} (h : CycleAll a b) (k : CycleAll b c) : CycleAll a c :=
  ⟨k.eu.trans h.eu, k.ident.trans h.ident, k.dcfg.trans h.dcfg, k.mem.trans h.mem, k.rail.trans h.rail, k.adc.trans h.adc, k.roo.trans h.roo, k.therm.trans h.therm, k.jtag.trans h.jtag, k.free.trans h.free, k.fa.trans h.fa, k.fb.trans h.fb, k.reg.trans h.reg, k.adm.trans h.adm, k.herd.trans h.herd, k.cip.trans h.cip, k.egy.trans h.egy, k.sav.trans h.sav, k.out.trans h.out, k.ctlAll.trans h.ctlAll, k.clkAll.trans h.clkAll, h.ev.trans k.ev, k.imgAll.trans h.imgAll⟩
theorem CycleKeeps.trans {a b c : Dev} (h : CycleKeeps a b) (k : CycleKeeps b c) : CycleKeeps a c :=
  ⟨h.toCycleAll.trans k.toCycleAll, k.ctl.trans h.ctl, k.clk.trans h.clk, k.tasks.trans h.tasks, k.ce.trans h.ce, k.mc.trans h.mc, k.img.trans h.img, k.rst.trans h.rst⟩
theorem CycleAll.refl (a : Dev) : CycleAll a a := by constructor <;> first | rfl | exact List.prefix_rfl | exact List.prefix_append _ _
theorem CycleKeeps.refl (a : Dev) : CycleKeeps a a := ⟨.refl a, rfl, rfl, rfl, rfl, rfl, rfl, rfl⟩

theorem CycleKeeps.ofMule {a b : Dev} (h : MuleKeeps a b) : CycleKeeps a b :=
  ⟨⟨h.eu, h.ident, h.dcfg, h.mem, h.rail, h.adc, h.roo, h.therm, h.jtag, h.free, congrArg (fun f => { f with inflight := [], cq := [] }) h.fa, congrArg (fun f => { f with inflight := [], cq := [] }) h.fb, congrArg (fun f => { f with reported := 0 }) h.reg, congrArg (fun f => { f with holding := false, holdCount := 0, overLim := false }) h.adm, congrArg (fun f => { f with pulling := false }) h.herd, h.cip, h.egy, h.sav, h.out,
      congrArg (fun c => { c with mode := .operate, entry := none, entrySwitching := false }) h.ctl, congrArg (fun c => { c with switching := false, target := false }) h.clk, h.ev, congrArg (fun i => { i with flags := 0 }) h.img⟩,
    h.ctl, h.clk, congrArg (List.map Task.still) h.tasks, h.ce, h.mc, h.img, h.rst⟩

theorem cycleIte {p : Prop} [Decidable p] {d a b : Dev} (h : CycleKeeps d a) (k : CycleKeeps d b) : CycleKeeps d (if p then a else b) := by
  split
  · exact h
  · exact k

theorem fabSettle_still (f : Fab) : { fabSettle f with inflight := [], cq := [] } = { f with inflight := [], cq := [] } := rfl

theorem settle_keeps (d : Dev) : CycleKeeps d d.settle :=
  ⟨⟨rfl, rfl, rfl, rfl, rfl, rfl, rfl, rfl, rfl, rfl, fabSettle_still d.fa, fabSettle_still d.fb, rfl, rfl, rfl, rfl, rfl, rfl, rfl, rfl, rfl, List.prefix_rfl, rfl⟩,
    rfl, rfl, rfl, rfl, rfl, rfl, rfl⟩

theorem guardCycle_keeps (d : Dev) : CycleKeeps d d.guardCycle := by
  unfold Dev.guardCycle
  exact cycleIte ⟨by constructor <;> first | rfl | exact List.prefix_rfl | exact List.prefix_append _ _, rfl, rfl, rfl, rfl, rfl, rfl, rfl⟩
    (cycleIte ⟨by constructor <;> first | rfl | exact List.prefix_rfl | exact List.prefix_append _ _, rfl, rfl, rfl, rfl, rfl, rfl, rfl⟩ (.refl d))

theorem captureCycle_keeps (d : Dev) : CycleKeeps d d.captureCycle := by
  unfold Dev.captureCycle
  exact cycleIte ⟨by constructor <;> first | rfl | exact List.prefix_rfl | exact List.prefix_append _ _, rfl, rfl, rfl, rfl, rfl, rfl, rfl⟩
    (cycleIte ⟨by constructor <;> first | rfl | exact List.prefix_rfl | exact List.prefix_append _ _, rfl, rfl, rfl, rfl, rfl, rfl, rfl⟩
      (cycleIte ⟨by constructor <;> first | rfl | exact List.prefix_rfl | exact List.prefix_append _ _, rfl, rfl, rfl, rfl, rfl, rfl, rfl⟩ (.refl d)))

theorem drainCycle_keeps (d : Dev) : CycleKeeps d d.drainCycle := by
  unfold Dev.drainCycle
  exact cycleIte ⟨by constructor <;> first | rfl | exact List.prefix_rfl | exact List.prefix_append _ _, rfl, rfl, rfl, rfl, rfl, rfl, rfl⟩ (.refl d)

theorem driveCycle_keeps (d : Dev) : CycleKeeps d d.driveCycle := ⟨by constructor <;> first | rfl | exact List.prefix_rfl | exact List.prefix_append _ _, rfl, rfl, rfl, rfl, rfl, rfl, rfl⟩

theorem map_still_modify (l : List Task) (t : Nat) (f : Task → Task) (hf : ∀ k, (f k).still = k.still) :
    (listUpd l t f).map Task.still = l.map Task.still := by
  unfold listUpd
  induction l generalizing t with
  | nil => simp
  | cons x l ih =>
    cases t with
    | zero => simp [hf]
    | succ t => simp [ih t]

theorem anchorTask_keeps (d : Dev) (t : Nat) : CycleKeeps d (d.anchorTask t) := by
  refine ⟨⟨rfl, rfl, rfl, rfl, rfl, rfl, rfl, rfl, rfl, rfl, rfl, rfl, rfl, rfl, rfl, rfl, rfl, rfl, rfl, rfl, rfl, List.prefix_rfl, rfl⟩, rfl, rfl, ?_, rfl, rfl, rfl, rfl⟩
  unfold Dev.anchorTask
  simp only [Dev.onTask_tasks]
  refine map_still_modify _ _ _ (fun k => ?_)
  split <;> rfl

theorem anchorFold_keeps (l : List Nat) (p : Dev → Nat → Bool) (d : Dev) :
    CycleKeeps d (l.foldl (fun d c => if p d c then d.anchorTask (4 + c) else d) d) := by
  induction l generalizing d with
  | nil => exact .refl d
  | cons x t ih => exact (cycleIte (p := p d x = true) (anchorTask_keeps d _) (.refl d)).trans (ih _)

theorem anchorTasks_keeps (d : Dev) : CycleKeeps d d.anchorTasks := by
  unfold Dev.anchorTasks
  split
  · refine CycleKeeps.trans ?_ (anchorTask_keeps _ 10)
    refine CycleKeeps.trans ?_ (anchorTask_keeps _ 9)
    refine CycleKeeps.trans (anchorFold_keeps (List.range 4) (fun d c => (d.chan c).retrainEn && (d.chan c).used) d) ?_
    exact cycleIte (.refl _) (anchorTask_keeps _ 8)
  · exact anchorFold_keeps (List.range 4) (fun d c => (d.chan c).retrainEn && (d.chan c).used) d
  · exact (anchorTask_keeps d 9).trans (anchorTask_keeps _ 10)
  · exact .refl d

/-- A RESTORE with nothing left to restore ends in this cycle (R581). -/
def Dev.restoreEnds (d : Dev) : Bool :=
  d.ctl.mode = .restore && d.rst.unrestored.isEmpty && d.rst.flight.isEmpty && d.rst.verdicts.isEmpty

theorem restoreEnd_idle {d : Dev} (h : d.restoreEnds = false) : d.restoreEnd = d := by
  unfold Dev.restoreEnd
  unfold Dev.restoreEnds at h
  simp [h]

theorem afterRestore_keeps (d : Dev) :
    CycleKeeps d d.muleCycle.guardCycle.captureCycle.drainCycle.driveCycle.anchorTasks :=
  (((((CycleKeeps.ofMule (muleCycle_keeps d)).trans (guardCycle_keeps _)).trans (captureCycle_keeps _)).trans (drainCycle_keeps _)).trans
    (driveCycle_keeps _)).trans (anchorTasks_keeps _)

/-- The work of a cycle in which no RESTORE ends. -/
theorem everyCycle_keeps {d : Dev} (h : d.restoreEnds = false) : CycleKeeps d d.everyCycle := by
  unfold Dev.everyCycle
  rw [restoreEnd_idle (d := d.settle) h]
  exact (settle_keeps d).trans (afterRestore_keeps _)

/-! ### The end of a RESTORE -/

theorem allIte {p : Prop} [Decidable p] {d a b : Dev} (h : CycleAll d a) (k : CycleAll d b) : CycleAll d (if p then a else b) := by
  split
  · exact h
  · exact k

theorem CycleAll.foldl {α : Type} (f : Dev → α → Dev) (hf : ∀ d x, CycleAll d (f d x)) (l : List α) (d : Dev) : CycleAll d (l.foldl f d) := by
  induction l generalizing d with
  | nil => exact .refl d
  | cons x t ih => exact (hf d x).trans (ih _)

theorem emit_all (d : Dev) (c v : Nat) : CycleAll d (d.emit c v) := by constructor <;> first | rfl | exact List.prefix_rfl | exact List.prefix_append _ _

theorem ceReturn_all (d : Dev) (n : Nat) (k : Option Checkpoint) : CycleAll d (d.ceReturn n k) := by
  unfold Dev.ceReturn
  split
  · exact .refl d
  · refine allIte (by constructor <;> first | rfl | exact List.prefix_rfl | exact List.prefix_append _ _) ?_
    dsimp only
    exact allIte (by constructor <;> first | rfl | exact List.prefix_rfl | exact List.prefix_append _ _) (by constructor <;> first | rfl | exact List.prefix_rfl | exact List.prefix_append _ _)

theorem entryFinish_all (d : Dev) (b : Bool) : CycleAll d (d.entryFinish (.fromRestore b)) := by
  unfold Dev.entryFinish
  constructor <;> first | rfl | exact List.prefix_rfl | exact List.prefix_append _ _

/-- What changes only channels, tasks and events is within what a cycle may write. -/
theorem HenKeeps.all {a b : Dev} (h : HenKeeps a b) : CycleAll a b := by
  have r := h.rest
  have f : ∀ {α : Type} (g : Dev → α), g { b with mc := a.mc, tasks := a.tasks, out := a.out } = g a := fun g => congrArg g r
  exact ⟨f Dev.eu, f Dev.ident, f Dev.dcfg, f Dev.mem, f Dev.rail, f Dev.adc, f Dev.roo, f Dev.therm, f Dev.jtag, f Dev.free
    , f (fun d => { d.fa with inflight := [], cq := [] }), f (fun d => { d.fb with inflight := [], cq := [] })
    , f (fun d => { d.reg with reported := 0 }), f (fun d => { d.adm with holding := false, holdCount := 0, overLim := false })
    , f (fun d => { d.herd with pulling := false }), f (fun d => { d.cip with goat := none, poison := [] })
    , f (fun d => { d.egy with cal1 := none })
    , f (fun d => { d.sav with taken := 0, short := none, phase := 0, finished := 0, programmed := 0, markerGen := 0, again := [] })
    , h.out, f (fun d => { d.ctl with mode := .operate, entry := none, entrySwitching := false })
    , f (fun d => { d.clk with switching := false, target := false }), h.ev, f (fun d => { d.img.still with flags := 0 })⟩

theorem withClk_all (d : Dev) (k : Clk) (h : { k with switching := false, target := false } = { d.clk with switching := false, target := false }) :
    CycleAll d { d with clk := k } :=
  ⟨rfl, rfl, rfl, rfl, rfl, rfl, rfl, rfl, rfl, rfl, rfl, rfl, rfl, rfl, rfl, rfl, rfl, rfl, rfl, rfl, h, List.prefix_rfl, rfl⟩

theorem clkSwitch_all (d : Dev) (b : Bool) : CycleAll d (d.clkSwitch b) :=
  (clkSwitch_hen d b).1.all.trans (withClk_all { d.clkSwitch b with clk := d.clk } (d.clkSwitch b).clk rfl)

theorem entryOperate_all (d : Dev) (b : Bool) : CycleAll d (d.entryOperate (.fromRestore b)) := by
  unfold Dev.entryOperate
  dsimp only
  have h : ∀ e, CycleAll d { d with ctl := { d.ctl with entry := some (.fromRestore b), entrySwitching := e } } := fun e => by
    constructor <;> first | rfl | exact List.prefix_rfl
  exact allIte (allIte (h true) ((h true).trans (clkSwitch_all _ _))) (allIte ((h false).trans (onPoint1_hen _ _).all) (entryFinish_all d b))

theorem returnCaptures_all (d : Dev) : CycleAll d d.returnCaptures :=
  CycleAll.foldl _ (fun d c => by
    split
    · exact .refl d
    · constructor <;> first | rfl | exact List.prefix_rfl | exact List.prefix_append _ _) _ _

theorem withRst_all (d : Dev) (r : Rst) : CycleAll d { d with rst := r } := by constructor <;> first | rfl | exact List.prefix_rfl | exact List.prefix_append _ _

theorem restoreEnd_all (d : Dev) : CycleAll d d.restoreEnd := by
  unfold Dev.restoreEnd
  refine allIte ?_ (.refl d)
  refine CycleAll.trans ?_ (entryOperate_all _ _)
  refine CycleAll.trans ?_ (withRst_all _ _)
  refine CycleAll.trans ?_ (emit_all _ _ _)
  refine CycleAll.trans ?_ (returnCaptures_all _)
  refine CycleAll.trans ?_ (CycleAll.foldl _ (fun e n => ceReturn_all e n _) _ _)
  constructor <;> first | rfl | exact List.prefix_rfl | exact List.prefix_append _ _

/-- The work of a cycle in any state. -/
theorem everyCycle_all (d : Dev) : CycleAll d d.everyCycle := by
  unfold Dev.everyCycle
  exact ((settle_keeps d).toCycleAll.trans (restoreEnd_all _)).trans (afterRestore_keeps _).toCycleAll

/-! ### Parts of what a cycle keeps -/

theorem CycleAll.out_mem {a b : Dev} (h : CycleAll a b) : b.out.mem = a.out.mem := by simpa using congrArg Outbox.mem h.out
theorem CycleAll.out_pop {a b : Dev} (h : CycleAll a b) : b.out.pop = a.out.pop := by simpa using congrArg Outbox.pop h.out
theorem CycleAll.out_clear {a b : Dev} (h : CycleAll a b) : b.out.clearQueue = a.out.clearQueue := by simpa using congrArg Outbox.clearQueue h.out
theorem CycleAll.out_reset {a b : Dev} (h : CycleAll a b) : b.out.seqReset = a.out.seqReset := by simpa using congrArg Outbox.seqReset h.out
theorem CycleAll.out_bump {a b : Dev} (h : CycleAll a b) : b.out.bump = a.out.bump := by simpa using congrArg Outbox.bump h.out

end Sys2Proof.Machine
end

