-- ==== Sys2Proof/Laws/Exec.lean ====
section
/-! SUPPORT. What the frames of a meaning answer, said once: a happening, a transaction that is refused or accepted, and the
end of a cycle. -/
namespace Sys2Proof.Machine
open Sys2Proof

/-! ### The states that a cycle and a transaction leave -/

@[simp] theorem State.done_pending (s : State) (d : Dev) : (s.done d).pending = s.pending := rfl
@[simp] theorem State.done_d (s : State) (d : Dev) : (s.done d).d = d := rfl
@[simp] theorem State.after_pending (s : State) (d : Dev) : (s.after d).pending = s.pending := rfl
@[simp] theorem State.after_d (s : State) (d : Dev) : (s.after d).d = d := rfl
@[simp] theorem State.close_pending (s : State) (x : Xact) (a b : Dev) : (s.close x a b).pending = s.pending := rfl
@[simp] theorem State.close_d (s : State) (x : Xact) (a b : Dev) : (s.close x a b).d = endCommit (s.shared x) a b := rfl

/-! ### Happenings -/

/-- A happening of a running data plane is its work, the work of every cycle and the end of the cycle. -/
theorem happen_alive {s : State} (f : Dev → Dev) (h : s.d.alive = true) :
    happen s f = s.after (endCycle s.d ((f s.d).everyCycle)) := by simp [happen, h]

/-- A happening of a data plane that does not run changes nothing. -/
theorem happen_dead {s : State} (f : Dev → Dev) (h : s.d.alive = false) : happen s f = s := by simp [happen, h]

/-- A happening that reaches every power state, while the data plane runs after it. -/
theorem happenAny_alive {s : State} (f : Dev → Dev) (h : (f s.d).alive = true) :
    happenAny s f = s.after (endCycle s.d ((f s.d).everyCycle)) := by simp [happenAny, h]

/-- A happening that reaches every power state, while it does not. -/
theorem happenAny_dead {s : State} (f : Dev → Dev) (h : (f s.d).alive = false) :
    happenAny s f = s.after (endCycle s.d (f s.d)) := by simp [happenAny, h]

/-! ### Transactions -/

/-- A transaction that no check fails. -/
theorem transact_accepted {s : State} {x : Xact} {c : Cmd} (hp : s.d.portLive = true) (hc : c.check x (s.view x) = none) :
    transact s x c =
      let r := c.reply (s.view x) (s.atReply x)
      let base := if c.commits x r.1 (s.seqAt x) (s.view x) s.d then c.clear s.d else s.d
      s.close x base (c.commit x r.1 (s.seqAt x) (s.view x) (base.withReply x (s.view x) r.1 r.2)) := by
  simp [transact, hp, hc]

/-- A transaction that a check fails. -/
theorem transact_refused {s : State} {x : Xact} {c : Cmd} {st : Byte} (hp : s.d.portLive = true)
    (hc : c.check x (s.view x) = some st) :
    transact s x c = refuse s x c.opcode st (c.staleAtReply x (s.view x)) (s.view x) := by
  simp [transact, hp, hc]

/-- A transaction while the port does not answer has no reply and no effect (R18). -/
theorem transact_dead {s : State} {x : Xact} {c : Cmd} (hp : s.d.portLive = false) :
    transact s x c = { s with d := { s.d with eu := { s.d.eu with reply := none } } } := by
  simp [transact, hp]

/-- The checks of Table 4.9 pass. -/
theorem check_none {c : Cmd} {x : Xact} {sd : Dev} (h1 : x.plen.toNat ≤ 252) (h2 : x.crcOk = true)
    (h3 : x.seq.isSome = true → 4 ≤ x.plen.toNat)
    (h4 : c.len (if x.seq.isSome then x.plen.toNat - 4 else x.plen.toNat) = true) (h5 : c.modes sd = true) (h6 : c.lock sd = false)
    (h7 : x.rsv = false) (h8 : c.valid sd = true) (h9 : c.query = true → holds sd x.tag = false)
    (h10 : ∀ q, x.seq = some q → q = sd.eu.stateSeq) (h11 : c.cond sd = none) : c.check x sd = none := by
  have a1 : ¬ 252 < x.plen.toNat := by omega
  have a3 : ¬ (x.seq.isSome = true ∧ x.plen.toNat < 4) := fun h => by have := h3 h.1; omega
  have a9 : ¬ (c.query = true ∧ holds sd x.tag = true) := fun h => by simp [h9 h.1] at h
  have a10 : ¬ (x.seq.isSome = true ∧ ¬ x.seq = some sd.eu.stateSeq) := by
    rintro ⟨h, k⟩
    obtain ⟨q, hq⟩ := Option.isSome_iff_exists.mp h
    exact k (by rw [hq, h10 q hq])
  simp only [Cmd.check, h2, h4, h5, h6, h7, h8, h11, a1, if_false, Bool.not_true, Bool.false_or, Bool.and_eq_true,
    decide_eq_true_eq, a3, Bool.false_eq_true, a9]
  simp only [ne_eq, a10, if_false]

/-! ### The end of a cycle -/

/-- Queueing events never makes the queue longer than 32 (R131). -/
theorem pushEvents_length (es : List Event) : ∀ (q : List Event) (n : BitVec 16), q.length ≤ 32 → (pushEvents q n es).1.length ≤ 32 := by
  induction es with
  | nil => intro q n h; exact h
  | cons e t ih =>
    intro q n h
    unfold pushEvents
    split
    · exact ih _ _ (by simp; omega)
    · exact ih _ _ h

/-- The queue after a cycle holds at most 32 entries. -/
theorem endCycle_queue {a b : Dev} (h : a.eu.queue.length ≤ 32) : (endCycle a b).eu.queue.length ≤ 32 := by
  refine pushEvents_length _ _ _ ?_
  unfold endKept
  split
  · simp
  · simp; omega

/-- Events never leave the queue while others are queued. -/
theorem pushEvents_kept (es : List Event) : ∀ (q : List Event) (n : BitVec 16) (e : Event), e ∈ q → e ∈ (pushEvents q n es).1 := by
  induction es with
  | nil => intro q n e h; exact h
  | cons a t ih =>
    intro q n e h
    unfold pushEvents
    split
    · exact ih _ _ _ (by simp [h])
    · exact ih _ _ _ h

/-- A queue that is full stays full. -/
theorem pushEvents_full (es : List Event) : ∀ (q : List Event) (n : BitVec 16), 32 ≤ q.length → 32 ≤ (pushEvents q n es).1.length := by
  induction es with
  | nil => intro q n h; exact h
  | cons a t ih =>
    intro q n h
    unfold pushEvents
    rw [if_neg (by omega)]
    exact ih _ _ h

/-- Every event of a cycle is queued, unless the queue ends full. -/
theorem pushEvents_mem (es : List Event) : ∀ (q : List Event) (n : BitVec 16) (e : Event), e ∈ es →
    (pushEvents q n es).1.length < 32 → e ∈ (pushEvents q n es).1 := by
  induction es with
  | nil => intro q n e h; simp at h
  | cons a t ih =>
    intro q n e h hl
    unfold pushEvents at hl ⊢
    split
    · rename_i hq
      rw [if_pos hq] at hl
      rcases List.mem_cons.mp h with rfl | h
      · exact pushEvents_kept _ _ _ _ (by simp)
      · exact ih _ _ _ h hl
    · rename_i hq
      rw [if_neg hq] at hl
      exact absurd hl (by have := pushEvents_full t q (satInc n) (by omega); omega)

theorem insertEvent_mem (e x : Nat × Event) (l : List (Nat × Event)) : x ∈ insertEvent e l ↔ x = e ∨ x ∈ l := by
  induction l with
  | nil => simp [insertEvent]
  | cons h t ih =>
    unfold insertEvent
    split
    · simp
    · simp only [List.mem_cons, ih]
      constructor
      · rintro (h | h | h) <;> simp [h]
      · rintro (h | h | h) <;> simp [h]

/-- Ordering the events of a cycle loses none. -/
theorem sortEvents_mem (l : List (Nat × Event)) (x : Nat × Event) (h : x ∈ l) : x.2 ∈ sortEvents l := by
  have k : ∀ (l acc : List (Nat × Event)), x ∈ l ∨ x ∈ acc → x ∈ l.foldl (fun acc e => insertEvent e acc) acc := by
    intro l
    induction l with
    | nil => intro acc h; simpa using h
    | cons a t ih =>
      intro acc h
      refine ih _ ?_
      rw [insertEvent_mem]
      rcases h with h | h
      · rcases List.mem_cons.mp h with rfl | h
        · exact .inr (.inl rfl)
        · exact .inl h
      · exact .inr (.inr h)
  exact List.mem_map_of_mem (k l [] (.inl h))

/-- An event raised in a cycle is queued at its end, unless the queue is then full (R127, R131). -/
theorem endCycle_event {a b : Dev} {e : Nat × Event} (h : e ∈ b.out.events) (hl : (endCycle a b).eu.queue.length < 32) :
    e.2 ∈ (endCycle a b).eu.queue :=
  pushEvents_mem _ _ _ _ (sortEvents_mem _ _ (List.mem_append_left _ h)) hl

/-- Queueing events only adds behind those queued. -/
theorem pushEvents_prefix (es : List Event) : ∀ (q : List Event) (n : BitVec 16), q <+: (pushEvents q n es).1 := by
  induction es with
  | nil => exact fun q n => List.prefix_rfl
  | cons a t ih =>
    intro q n
    unfold pushEvents
    split
    · exact (List.prefix_append q [a]).trans (ih _ _)
    · exact ih _ _

/-- Putting an event in its place neither adds nor loses another. -/
theorem placeEvent_perm (l : List Event) (e : Event) : (placeEvent l e).Perm (e :: l) := by
  induction l with
  | nil => exact .refl _
  | cons h t ih =>
    unfold placeEvent
    split
    · exact .refl _
    · exact (List.Perm.cons h ih).trans (.swap e h t)

/-- Ordering the events of a shared cycle neither adds nor loses one (R127). -/
theorem mergeEvents_perm (q : List Event) (k : Nat) (new : List Event) : (mergeEvents q k new).Perm (q ++ new) := by
  have h : ∀ (l r : List Event), (l.foldl placeEvent r).Perm (r ++ l) := by
    intro l
    induction l with
    | nil => intro r; simp
    | cons e t ih => exact fun r => (ih _).trans (((placeEvent_perm r e).append_right t).trans List.perm_middle.symm)
  unfold mergeEvents
  refine ((h new (q.drop k)).append_left _).trans ?_
  rw [← List.append_assoc, List.take_append_drop]

/-- The commit's cycle leaves the queue that its end makes, but for the order of the events of one cycle. -/
theorem endCommit_queue (z : Option Dev) (a b : Dev) : (endCommit z a b).eu.queue.Perm (endCycle a b).eu.queue := by
  cases z with
  | none => exact .refl _
  | some z =>
    have h : endKept a b <+: (endCycle a b).eu.queue := pushEvents_prefix _ _ _
    obtain ⟨t, ht⟩ := h
    refine (mergeEvents_perm _ _ _).trans ?_
    rw [← ht, List.drop_left]

/-- An event raised in a commit's cycle is queued at its end, unless the queue is then full. -/
theorem endCommit_event {z : Option Dev} {a b : Dev} {e : Nat × Event} (h : e ∈ b.out.events)
    (hl : (endCommit z a b).eu.queue.length < 32) : e.2 ∈ (endCommit z a b).eu.queue :=
  (endCommit_queue z a b).mem_iff.mpr (endCycle_event h ((endCommit_queue z a b).length_eq ▸ hl))

/-- A cycle that raises no event and takes none leaves the queue and EVENT_LOST. -/
theorem endQueue_none {a b : Dev} (h1 : b.out.events = []) (h2 : b.out.clearQueue = false) (h3 : b.out.pop = 0) :
    endQueue a b = (a.eu.queue, a.eu.lost) := by
  simp [endQueue, endKept, endOverflow, endEvents, h1, h2, h3, sortEvents, pushEvents]

/-- A cycle that changes nothing STATE_SEQ stamps leaves it (R117). -/
theorem endSeq_same {a b : Dev} (h1 : b.out = Outbox.none) (h2 : b.stamped = a.stamped) : endSeq a b = a.eu.stateSeq := by
  have hm : endMem a b = a.mem := by simp [endMem, h1, Outbox.none]
  simp [endSeq, endChanged, h1, h2, hm, Outbox.none]

/-- An unchanged STATE_SEQ, not 0, says that nothing it stamps has changed (R117). -/
theorem stamped_of_endSeq {a b : Dev} (h : endSeq a b = a.eu.stateSeq) (h0 : a.eu.stateSeq ≠ 0) :
    endMem a b = a.mem ∧ { b.stamped with mem := a.mem } = { a.stamped with mem := a.mem } := by
  unfold endSeq at h
  split at h
  · exact absurd h.symm h0
  · split at h
    · exact absurd h (by simp)
    · rename_i h1
      simp only [Bool.or_eq_true, not_or, endChanged, decide_eq_true_eq, ne_eq, Decidable.not_not] at h1
      obtain ⟨⟨h2, h3⟩, -⟩ := h1
      rw [h3] at h2
      exact ⟨h3, h2.symm⟩

end Sys2Proof.Machine
end

