-- ==== Sys2Proof/Laws/Ledger.lean ====
section
/-! SUPPORT. What the RC reductions of a Ledger read leave unchanged. -/
namespace Sys2Proof.Machine
open Sys2Proof

/-- A choice between two devices that agree on a part agrees on it. -/
theorem ite_proj {α : Type} {p : Prop} [Decidable p] {a b : Dev} {f : Dev → α} {v : α} (h : f a = v) (k : f b = v) :
    f (if p then a else b) = v := by
  split
  · exact h
  · exact k

/-- A Ledger read reduces no DRAM byte, no event and no STATE_SEQ (R123, R182). -/
theorem rcClear_frame (d : Dev) (a : Nat) (r : Word) :
    ((d.rcClear a r).mem, (d.rcClear a r).eu.queue, (d.rcClear a r).eu.lost, (d.rcClear a r).eu.stateSeq, (d.rcClear a r).out,
      (d.rcClear a r).ctl, (d.rcClear a r).eu.overflowSeen) = (d.mem, d.eu.queue, d.eu.lost, d.eu.stateSeq, d.out, d.ctl, d.eu.overflowSeen) := by
  unfold Dev.rcClear
  dsimp only
  refine ite_proj (f := fun e : Dev => (e.mem, e.eu.queue, e.eu.lost, e.eu.stateSeq, e.out, e.ctl, e.eu.overflowSeen)) rfl ?_
  refine ite_proj (f := fun e : Dev => (e.mem, e.eu.queue, e.eu.lost, e.eu.stateSeq, e.out, e.ctl, e.eu.overflowSeen)) rfl ?_
  refine ite_proj (f := fun e : Dev => (e.mem, e.eu.queue, e.eu.lost, e.eu.stateSeq, e.out, e.ctl, e.eu.overflowSeen)) rfl ?_
  refine ite_proj (f := fun e : Dev => (e.mem, e.eu.queue, e.eu.lost, e.eu.stateSeq, e.out, e.ctl, e.eu.overflowSeen)) rfl ?_
  refine ite_proj (f := fun e : Dev => (e.mem, e.eu.queue, e.eu.lost, e.eu.stateSeq, e.out, e.ctl, e.eu.overflowSeen)) rfl ?_
  refine ite_proj (f := fun e : Dev => (e.mem, e.eu.queue, e.eu.lost, e.eu.stateSeq, e.out, e.ctl, e.eu.overflowSeen)) rfl ?_
  refine ite_proj (f := fun e : Dev => (e.mem, e.eu.queue, e.eu.lost, e.eu.stateSeq, e.out, e.ctl, e.eu.overflowSeen)) rfl ?_
  refine ite_proj (f := fun e : Dev => (e.mem, e.eu.queue, e.eu.lost, e.eu.stateSeq, e.out, e.ctl, e.eu.overflowSeen)) rfl ?_
  refine ite_proj (f := fun e : Dev => (e.mem, e.eu.queue, e.eu.lost, e.eu.stateSeq, e.out, e.ctl, e.eu.overflowSeen)) rfl ?_
  refine ite_proj (f := fun e : Dev => (e.mem, e.eu.queue, e.eu.lost, e.eu.stateSeq, e.out, e.ctl, e.eu.overflowSeen)) rfl ?_
  exact ite_proj (f := fun e : Dev => (e.mem, e.eu.queue, e.eu.lost, e.eu.stateSeq, e.out, e.ctl, e.eu.overflowSeen)) rfl rfl

/-- The same of a block read. -/
theorem rcClearAll_frame (d : Dev) (a : Nat) (ws : List Word) :
    ((d.rcClearAll a ws).mem, (d.rcClearAll a ws).eu.queue, (d.rcClearAll a ws).eu.lost, (d.rcClearAll a ws).eu.stateSeq,
      (d.rcClearAll a ws).out, (d.rcClearAll a ws).ctl, (d.rcClearAll a ws).eu.overflowSeen)
      = (d.mem, d.eu.queue, d.eu.lost, d.eu.stateSeq, d.out, d.ctl, d.eu.overflowSeen) := by
  unfold Dev.rcClearAll
  generalize ws.zipIdx = l
  induction l generalizing d with
  | nil => rfl
  | cons x t ih => exact (ih _).trans (rcClear_frame _ _ _)

end Sys2Proof.Machine
end

