-- ==== Sys2Proof/Laws/Frame.lean ====
section
/-! SUPPORT. Everything a command can do to the frame of the state: it changes nothing, the reply alone, the boundary-scan port
alone, or ends one data-plane cycle. -/
namespace Sys2Proof.Machine
open Sys2Proof

/-- What a cycle's end takes from the device before it: DRAM, the event queue, EVENT_LOST, STATE_SEQ and the cycle's outbox. -/
def cycleBase (d : Dev) : List Host.Cell × List Event × BitVec 16 × Word × Outbox × Ctl × Bool :=
  (d.mem, d.eu.queue, d.eu.lost, d.eu.stateSeq, d.out, d.ctl, d.eu.overflowSeen)

/-- How a command ends. `counted` says that STATE_SEQ judges the device as it was before the command. -/
inductive Ends (counted : Bool) (s t : State) : Prop where
  | same (h : t = s)
  | reply (r : Option Reply) (h : t = { s with d := { s.d with eu := { s.d.eu with reply := r } } })
  | tap (j : Jtag) (hc : counted = false) (h : t = { s with d := { s.d with jtag := j } })
  | cycle (z : Option Dev) (a b : Dev) (hz : z = none ∨ z = s.past.head?) (ha : cycleBase a = cycleBase s.d) (hc : counted = true → a = s.d)
      (hp : t.pending = s.pending) (hd : t.d = endCommit z a b)

theorem shared_cases (s : State) (x : Xact) : s.shared x = none ∨ s.shared x = s.past.head? := by
  unfold State.shared
  split
  · exact .inr rfl
  · exact .inl rfl

/-- A cycle of its own. -/
theorem Ends.alone {k : Bool} {s t : State} (b : Dev) (hp : t.pending = s.pending) (hd : t.d = endCycle s.d b) : Ends k s t :=
  .cycle none s.d b (.inl rfl) rfl (fun _ => rfl) hp hd


theorem happen_ends (s : State) (f : Dev → Dev) (k : Bool) : Ends k s (happen s f) := by
  unfold happen
  split
  · exact .alone _ rfl rfl
  · exact .same rfl

theorem happenAny_ends (s : State) (f : Dev → Dev) (k : Bool) : Ends k s (happenAny s f) := .alone _ rfl rfl

/-- A happening that may abandon the open transaction. -/
theorem happenAny_cut₁ (s : State) (f : Dev → Dev) (k p : Bool) : Ends k s (if p then happenAny s f else (happenAny s f).cut) := by
  split <;> exact .alone _ rfl rfl
theorem happenAny_cut₂ (s : State) (f : Dev → Dev) (k p : Bool) : Ends k s (if p then (happenAny s f).cut else happenAny s f) := by
  split <;> exact .alone _ rfl rfl

theorem refuse_ends (s : State) (x : Xact) (op st : Byte) (b : Bool) (sd : Dev) (k : Bool) : Ends k s (refuse s x op st b sd) :=
  .cycle _ s.d _ (shared_cases s x) rfl (fun _ => rfl) rfl rfl

/-- A transaction of a command that reduces no RC field. -/
theorem transact_ends (s : State) (x : Xact) (c : Cmd) (h : ∀ d, c.clear d = d) (k : Bool) : Ends k s (transact s x c) := by
  unfold transact
  dsimp only
  split
  · exact .reply none rfl
  · split
    · exact refuse_ends _ _ _ _ _ _ _
    · refine .cycle _ _ _ (shared_cases s x) ?_ ?_ rfl rfl <;> simp [h]

/-- A transaction of any command whose reductions are those of a Ledger read. -/
theorem transact_ends_rc (s : State) (x : Xact) (c : Cmd) (h : ∀ d, cycleBase (c.clear d) = cycleBase d) : Ends false s (transact s x c) := by
  unfold transact
  dsimp only
  split
  · exact .reply none rfl
  · split
    · exact refuse_ends _ _ _ _ _ _ _
    · refine .cycle _ _ _ (shared_cases s x) ?_ (by simp) rfl rfl
      split
      · exact h _
      · rfl

/-- Commands whose commit reduces RC fields, and the clock of the JTAG port: STATE_SEQ does not judge them (R182). -/
def unjudged : Instr → Bool
  | .ledgerRead _ _ => true
  | .ledgerReadBlock _ _ _ => true
  | .ledgerModify _ _ _ _ => true
  | .jtagTck _ _ _ => true
  | _ => false

/-- Every command answers a next state, and ends in one of the four ways. -/
theorem exec_ends (c : Instr) (s : State) : ∃ t, exec c s = .next t ∧ Ends (!unjudged c) s t := by
  cases c
  case ledgerRead x a => exact ⟨_, rfl, transact_ends_rc _ _ _ (fun d => rcClear_frame d _ _)⟩
  case ledgerReadBlock x a n => exact ⟨_, rfl, transact_ends_rc _ _ _ (fun d => rcClearAll_frame d _ _)⟩
  case ledgerModify x a m v => exact ⟨_, rfl, transact_ends_rc _ _ _ (fun d => rcClear_frame d _ _)⟩
  case modeRequestClose x a p =>
    refine ⟨_, rfl, ?_⟩
    split <;> exact transact_ends _ _ _ (fun _ => rfl) _
  case badOpcode x op =>
    refine ⟨_, rfl, ?_⟩
    split
    · exact refuse_ends _ _ _ _ _ _ _
    · exact .reply none rfl
  case badSync =>
    refine ⟨_, rfl, ?_⟩
    split
    · exact .alone _ rfl rfl
    · exact .reply none rfl
  case transactionAbandon b =>
    refine ⟨_, rfl, ?_⟩
    split
    · exact .alone _ rfl rfl
    · exact .same rfl
  case jtagTck a b c =>
    refine ⟨_, rfl, ?_⟩
    split
    · exact .same rfl
    · exact .tap _ rfl rfl
  case resetNAssert o => exact ⟨_, rfl, happenAny_cut₁ _ _ _ _⟩
  case domainFault a o => exact ⟨_, rfl, happenAny_cut₂ _ _ _ _⟩
  all_goals
    first
    | exact ⟨_, rfl, happen_ends _ _ _⟩
    | exact ⟨_, rfl, happenAny_ends _ _ _⟩
    | exact ⟨_, rfl, transact_ends _ _ _ (fun _ => rfl) _⟩

end Sys2Proof.Machine
end

