-- ==== Sys2Proof/Laws/Same.lean ====
section
/-! SUPPORT. The units that the work of every cycle and the end of a cycle leave the same. -/
namespace Sys2Proof
open Machine

/-- Every unit is the same as itself. -/
theorem Part.same_refl (p : Part) (a : Dev) : p.same a a := by
  cases p <;> simp [Part.same]

/-- The work of every cycle leaves every unit the same. -/
theorem everyCycle_same (p : Part) (d : Dev) : p.same d d.everyCycle := by
  have h := everyCycle_all d
  have k : d.ctl.mode ≠ .restore → CycleKeeps d d.everyCycle := fun hm =>
    everyCycle_keeps (by simp [Dev.restoreEnds, hm])
  revert h k
  generalize d.everyCycle = e
  intro h k
  cases p
  case plane => exact congrArg planeOf h.eu
  case mode => exact ⟨fun hm => (k hm).ctl, h.ctlAll⟩
  case clock => exact ⟨fun hm => (k hm).clk, h.clkAll⟩
  case ident => exact h.ident
  case ports => exact ⟨h.fa, h.fb⟩
  case regions => exact h.reg
  case engines => exact fun hm => (k hm).ce
  case channels => exact fun hm => (k hm).mc
  case dram => intro i; rw [h.mem]
  case config => exact h.dcfg
  case image => exact h.imgAll
  case cipher => exact h.cip
  case rails => exact h.rail
  case adc => exact h.adc
  case energy => exact h.egy
  case admission => exact h.adm
  case saving => exact h.sav
  case restoring => exact fun hm => (k hm).rst
  case herd => exact h.herd
  case rooster => exact h.roo
  case thermal => exact h.therm
  case tasks => exact fun hm => (k hm).tasks
  case jtag => exact h.jtag

/-- Units that are the same across two changes, the first of which leaves the mode machine the same. -/
theorem Part.same_trans {p : Part} {a b c : Dev} (hm : a.ctl.mode ≠ .restore → b.ctl.mode ≠ .restore) (h : p.same a b) (k : p.same b c) :
    p.same a c := by
  cases p
  case mode => exact ⟨fun r => (k.1 (hm r)).trans (h.1 r), k.2.trans h.2⟩
  case clock => exact ⟨fun r => (k.1 (hm r)).trans (h.1 r), k.2.trans h.2⟩
  case engines => exact fun r => (k (hm r)).trans (h r)
  case channels => exact fun r => (k (hm r)).trans (h r)
  case restoring => exact fun r => (k (hm r)).trans (h r)
  case tasks => exact fun r => (k (hm r)).trans (h r)
  case dram => exact fun i => (k i).trans (h i)
  case ports => exact ⟨k.1.trans h.1, k.2.trans h.2⟩
  all_goals exact Eq.trans k h

/-- The end of a cycle without a DRAM write leaves every unit the same. -/
theorem endCycle_same (p : Part) {a b : Dev} (hm : b.mem = a.mem) (ho : b.out.mem = []) : p.same b (endCycle a b) := by
  cases p
  case dram =>
    intro i
    show memRead (endMem a b) i = memRead b.mem i
    rw [endMem, ho, hm]; rfl
  all_goals simp [Part.same, endCycle, planeOf]

/-- The same of the cycle of a commit. -/
theorem endCommit_same (p : Part) {z : Option Dev} {a b : Dev} (hm : b.mem = a.mem) (ho : b.out.mem = []) : p.same b (endCommit z a b) := by
  have h := endCycle_same p hm ho
  cases z with
  | none => exact h
  | some z => cases p <;> exact h

/-- A happening, with what the work of its cycle may add kept apart. -/
theorem happen_all {s : State} (f : Dev → Dev) (ha : s.d.alive = true) :
    ∃ e, CycleAll (f s.d) e ∧ (happen s f).d = endCycle s.d e :=
  ⟨_, everyCycle_all (f s.d), by rw [happen_alive f ha]; rfl⟩

/-- The same where no RESTORE ends in the cycle. -/
theorem happen_keeps {s : State} (f : Dev → Dev) (ha : s.d.alive = true) (hr : (f s.d).restoreEnds = false) :
    ∃ e, CycleKeeps (f s.d) e ∧ (happen s f).d = endCycle s.d e :=
  ⟨_, everyCycle_keeps hr, by rw [happen_alive f ha]; rfl⟩

/-- What a happening leaves the same: what its work does. -/
theorem happen_same {s : State} {f : Dev → Dev} {l : List Part} (ha : s.d.alive = true)
    (hm : s.d.ctl.mode ≠ .restore → (f s.d).ctl.mode ≠ .restore) (hd : (f s.d).mem = s.d.mem) (ho : (f s.d).out.mem = [])
    (h : SameBut l s.d (f s.d)) : SameBut l s.d (happen s f).d := by
  intro p hp
  rw [happen_alive f ha]
  have c := everyCycle_all (f s.d)
  have hom : (f s.d).everyCycle.out.mem = [] := (congrArg Outbox.mem c.out).trans ho
  refine Part.same_trans hm (h p hp) ?_
  refine Part.same_trans (b := (f s.d).everyCycle) ?_ (everyCycle_same p _) (endCycle_same p (c.mem.trans hd) hom)
  intro r
  rw [(everyCycle_keeps (by simp [Dev.restoreEnds, r])).ctl]
  exact r

/-- An event that the work of a happening raises is queued. -/
theorem happen_event {s : State} {f : Dev → Dev} {k : Nat} {code param : Nat} (ha : s.d.alive = true)
    (h : (k, eventOf code param) ∈ (f s.d).out.events) : Queued code param (happen s f).d := by
  intro hl
  rw [happen_alive f ha] at hl ⊢
  exact endCycle_event ((everyCycle_all (f s.d)).ev.subset h) hl

end Sys2Proof
end

