-- ==== Sys2Proof/Laws/Tx.lean ====
section
/-! SUPPORT. What an accepted transaction answers, in the terms of the statements. -/
namespace Sys2Proof.Stmt
open Sys2Proof.Machine

/-- A commit in a cycle of its own ends as any cycle does. -/
@[simp] theorem endCommit_alone (a b : Dev) : endCommit none a b = endCycle a b := rfl

/-- A cycle in which nothing that STATE_SEQ stamps changes, no event arises and no DRAM byte is written ends as it is. -/
theorem endCycle_quiet {a b : Dev} (ho : b.out = Outbox.none) (hm : b.mem = a.mem) (hst : b.stamped = a.stamped)
    (hq : b.eu.queue = a.eu.queue) (hl : b.eu.lost = a.eu.lost) (hs : b.eu.stateSeq = a.eu.stateSeq) :
    endCycle a b = b := by
  have h1 := endQueue_none (a := a) (b := b) (by rw [ho]; rfl) (by rw [ho]; rfl) (by rw [ho]; rfl)
  have h2 := endSeq_same ho hst
  have h3 : endOverflow a b = false := by simp [endOverflow, ho, Outbox.none]
  have h4 : endMem a b = a.mem := by simp [endMem, ho, Outbox.none]
  unfold endCycle
  rw [h1, h2, h3, h4, ← hm, ← hq, ← hl, ← hs, ← ho]
  simp

/-- The same of the cycle of a commit, shared or not. -/
theorem endCommit_quiet {z : Option Dev} {a b : Dev} (ho : b.out = Outbox.none) (hm : b.mem = a.mem) (hst : b.stamped = a.stamped)
    (hq : b.eu.queue = a.eu.queue) (hl : b.eu.lost = a.eu.lost) (hs : b.eu.stateSeq = a.eu.stateSeq) : endCommit z a b = b := by
  have h := endCycle_quiet ho hm hst hq hl hs
  cases z with
  | none => exact h
  | some z =>
    unfold endCommit
    simp only [h]
    have k : endKept a b = b.eu.queue := by simp [endKept, ho, Outbox.none, hq]
    have m : ∀ n, mergeEvents (endKept a b) n (b.eu.queue.drop (endKept a b).length) = b.eu.queue := fun n => by
      simp [k, mergeEvents]
    rw [m, hs]
    split <;> simp [← hs]

@[simp] theorem happen_pending (s : State) (f : Dev → Dev) : (happen s f).pending = s.pending := by unfold happen; split <;> rfl
@[simp] theorem happenAny_pending (s : State) (f : Dev → Dev) : (happenAny s f).pending = s.pending := rfl

/-- A command that answers a next state runs. -/
theorem Runs.intro {c : Instr} {s t : State} {P : Dev → Prop} (h : exec c s = .next t) (hp : t.pending = s.pending) (hd : P t.d) :
    Runs c s P := ⟨t, h, hp, hd⟩

/-- A transaction runs. -/
theorem Runs.ofDone {c : Instr} {s : State} {d : Dev} {P : Dev → Prop} (h : exec c s = .next (s.done d)) (hd : P d) : Runs c s P :=
  ⟨_, h, State.done_pending s d, hd⟩

/-- A request that is sent right, in the command's mode and with its conditions met, passes every check. -/
theorem sent_check {x : Xact} {n : Nat} {s : State} {c : Cmd} (h : Sent x n s) (hn : n ≤ 248) (hlen : c.len n = true)
    (hmodes : c.modes (s.view x) = true) (hlock : c.lock (s.view x) = false) (hvalid : c.valid (s.view x) = true)
    (hq : c.query = true → holds (s.view x) x.tag = false) (hcond : c.cond (s.view x) = none) : c.check x (s.view x) = none := by
  obtain ⟨_, _, _, h2, h7, h3, h10⟩ := h
  refine check_none ?_ h2 ?_ ?_ hmodes hlock h7 hvalid hq (fun q hq => (h10 q hq).1) hcond
  · rw [h3]; split <;> omega
  · intro hs; rw [h3, hs]; simp
  · rw [h3]
    by_cases hs : x.seq.isSome = true <;> simp [hs, hlen]

/-- Nor is its STATE_SEQ stale at the commit edge (R119). -/
theorem sent_fresh {x : Xact} {n : Nat} {s : State} (h : Sent x n s) (st : Byte) : staleAtCommit x st (s.seqAt x) = false := by
  unfold staleAtCommit
  cases hx : x.seq with
  | none => simp
  | some q => simp [(h.2.2.2.2.2.2 q hx).2]

/-- Such a request commits: its reply and its effect, on the device whose RC fields its reply has reduced. -/
theorem sent_commits {x : Xact} {n : Nat} {s : State} {c : Cmd} (h : Sent x n s) (hn : n ≤ 248) (hlen : c.len n = true)
    (hmodes : c.modes (s.view x) = true) (hlock : c.lock (s.view x) = false) (hvalid : c.valid (s.view x) = true)
    (hq : c.query = true → holds (s.view x) x.tag = false) (hcond : c.cond (s.view x) = none)
    (hmc : c.modeChange = true → modeMoved (s.view x) s.d = false) (hk : (c.clear s.d).ctl = s.d.ctl) :
    transact s x c = s.close x (c.clear s.d) (c.effect (s.view x)
        ((c.clear s.d).withReply x (s.view x) (c.reply (s.view x) (s.atReply x)).1 (c.reply (s.view x) (s.atReply x)).2)) := by
  have h1 := transact_accepted (c := c) h.2.1 (sent_check h hn hlen hmodes hlock hvalid hq hcond)
  have e1 : ∀ d : Dev, d.ctl = s.d.ctl → (c.modeChange && modeMoved (s.view x) d) = false := fun d hd => by
    cases hm : c.modeChange with
    | false => rfl
    | true => simpa [modeMoved, hd] using hmc hm
  rw [h1]
  simp only [Cmd.commits, Cmd.commit, sent_fresh h, e1 s.d rfl, Bool.not_false, Bool.and_self, if_true]
  rw [e1 _ (by simpa [Dev.withReply] using hk)]
  simp

/-- A command without RC reductions: its reply and its effect. -/
theorem sent_runs {x : Xact} {n : Nat} {s : State} {c : Cmd} (h : Sent x n s) (hn : n ≤ 248) (hlen : c.len n = true)
    (hmodes : c.modes (s.view x) = true) (hlock : c.lock (s.view x) = false) (hvalid : c.valid (s.view x) = true)
    (hq : c.query = true → holds (s.view x) x.tag = false) (hcond : c.cond (s.view x) = none)
    (hmc : c.modeChange = true → modeMoved (s.view x) s.d = false) (hcl : c.clear s.d = s.d) :
    transact s x c = s.close x s.d (c.effect (s.view x)
        (s.d.withReply x (s.view x) (c.reply (s.view x) (s.atReply x)).1 (c.reply (s.view x) (s.atReply x)).2)) := by
  have k := sent_commits h hn hlen hmodes hlock hvalid hq hcond hmc (by rw [hcl])
  rwa [hcl] at k

/-- A reply alone. -/
theorem withReply_end {z : Option Dev} {s : State} {x : Xact} {st : Byte} {p : List Word} (ho : s.d.out = Outbox.none) :
    endCommit z s.d (s.d.withReply x (s.view x) st p) = { s.d with eu := { s.d.eu with reply := replyOf x s st p } } :=
  endCommit_quiet ho rfl rfl rfl rfl rfl

/-- The work of a class A command whose conditions still hold. -/
theorem act_runs {ok : Dev → Bool} {void work : Dev → Dev} {d : Dev} (h : ok d = true) : Cmd.act ok void work d = (work d).everyCycle := by
  simp [Cmd.act, h]

/-- The work of a class A command, with what the work of its cycle may add kept apart. -/
theorem work_all (d : Dev) : ∃ e, CycleAll d e ∧ d.everyCycle = e := ⟨_, everyCycle_all d, rfl⟩

/-- The same where no RESTORE ends in the cycle. -/
theorem work_keeps {d : Dev} (hr : d.restoreEnds = false) : ∃ e, CycleKeeps d e ∧ d.everyCycle = e := ⟨_, everyCycle_keeps hr, rfl⟩

/-- What the work of a transaction leaves the same, its cycle's end included. -/
theorem work_same {z : Option Dev} {d e sd : Dev} {x : Xact} {st : Byte} {p : List Word} {l : List Part} (hm : d.ctl.mode ≠ .restore → e.ctl.mode ≠ .restore)
    (hd : e.mem = d.mem) (ho : e.out.mem = []) (h : SameBut l (d.withReply x sd st p) e) : SameBut l d (endCommit z d e.everyCycle) := by
  intro q hq
  have c := everyCycle_all e
  have hom : e.everyCycle.out.mem = [] := (congrArg Outbox.mem c.out).trans ho
  have h0 : q.same d (d.withReply x sd st p) := by
    cases q
    case dram => exact fun i => rfl
    all_goals simp [Part.same, Dev.withReply, planeOf]
  refine Part.same_trans (b := d.withReply x sd st p) id h0 ?_
  refine Part.same_trans hm (h q hq) ?_
  refine Part.same_trans (b := e.everyCycle) ?_ (everyCycle_same q _) (endCommit_same q (c.mem.trans hd) hom)
  intro r
  rw [(everyCycle_keeps (by simp [Dev.restoreEnds, r])).ctl]
  exact r

end Sys2Proof.Stmt
end

