-- ==== Sys2Proof/Laws/Only.lean ====
section
/-! SUPPORT. Which units a shared operation can change: `Only l a b` says that `b` differs from `a` in the units `l` alone, and that
the events raised on the way stay raised. -/
namespace Sys2Proof
open Machine

/-- A unit is exactly the same; DRAM also in what the cycle has still to write. -/
def Part.exact (p : Part) (a b : Dev) : Prop :=
  match p with
  | .plane => b.eu = a.eu
  | .mode => b.ctl = a.ctl
  | .clock => b.clk = a.clk
  | .ident => b.ident = a.ident
  | .ports => b.fa = a.fa ∧ b.fb = a.fb
  | .regions => b.reg = a.reg
  | .engines => b.ce = a.ce
  | .channels => b.mc = a.mc
  | .dram => b.out.mem = a.out.mem
  | .config => b.dcfg = a.dcfg
  | .image => b.img = a.img
  | .cipher => b.cip = a.cip
  | .rails => b.rail = a.rail
  | .adc => b.adc = a.adc
  | .energy => b.egy = a.egy
  | .admission => b.adm = a.adm
  | .saving => b.sav = a.sav
  | .restoring => b.rst = a.rst
  | .herd => b.herd = a.herd
  | .rooster => b.roo = a.roo
  | .thermal => b.therm = a.therm
  | .tasks => b.tasks = a.tasks
  | .jtag => b.jtag = a.jtag

theorem Part.exact_refl (p : Part) (a : Dev) : p.exact a a := by cases p <;> first | exact ⟨rfl, rfl⟩ | rfl

theorem Part.exact_trans {p : Part} {a b c : Dev} (h : p.exact a b) (k : p.exact b c) : p.exact a c := by
  cases p
  case ports => exact ⟨k.1.trans h.1, k.2.trans h.2⟩
  all_goals exact Eq.trans k h

theorem Part.same_of_exact {p : Part} {a b : Dev} (hm : b.mem = a.mem) (h : p.exact a b) : p.same a b := by
  cases p
  case ports => exact ⟨by rw [h.1], by rw [h.2]⟩
  case mode => exact ⟨fun _ => h, by rw [show b.ctl = a.ctl from h]⟩
  case clock => exact ⟨fun _ => h, by rw [show b.clk = a.clk from h]⟩
  case dram => exact fun i => by rw [hm]
  case engines => exact fun _ => h
  case channels => exact fun _ => h
  case restoring => exact fun _ => by rw [show b.rst = a.rst from h]
  case plane => exact congrArg planeOf h
  case regions => exact congrArg (fun r => { r with reported := 0 }) h
  case image => exact congrArg imageOf h
  case cipher => exact congrArg (fun c => { c with goat := none, poison := [] }) h
  case energy => exact congrArg (fun c => { c with cal1 := none }) h
  case admission => exact congrArg (fun c => { c with holding := false, holdCount := 0, overLim := false }) h
  case saving => exact congrArg (fun c => { c with taken := 0, short := none, phase := 0, finished := 0, programmed := 0, markerGen := 0, again := [] }) h
  case herd => exact congrArg (fun c => { c with pulling := false }) h
  case tasks => exact fun _ => congrArg (List.map (fun (t : Task) => { t with anchor := none })) h
  all_goals exact h

/-- `b` differs from `a` only in the units `l`, in events raised in between and in the counter of free values. -/
structure Only (l : List Part) (a b : Dev) : Prop where
  same : ∀ p, p ∉ l → p.exact a b
  mem : b.mem = a.mem
  out : { b.out with events := [], mem := [] } = { a.out with events := [], mem := [] }
  ev : a.out.events <+: b.out.events

theorem Only.refl (l : List Part) (a : Dev) : Only l a a := ⟨fun p _ => p.exact_refl a, rfl, rfl, List.prefix_rfl⟩

theorem Only.trans {l : List Part} {a b c : Dev} (h : Only l a b) (k : Only l b c) : Only l a c :=
  ⟨fun p hp => Part.exact_trans (h.same p hp) (k.same p hp), k.mem.trans h.mem, k.out.trans h.out, h.ev.trans k.ev⟩

theorem Only.mono {l m : List Part} {a b : Dev} (h : Only l a b) (hl : ∀ p ∈ l, p ∈ m) : Only m a b :=
  ⟨fun p hp => h.same p (fun k => hp (hl p k)), h.mem, h.out, h.ev⟩

theorem Only.ite {l : List Part} {p : Prop} [Decidable p] {a b c : Dev} (h : Only l a b) (k : Only l a c) : Only l a (if p then b else c) := by
  split
  · exact h
  · exact k

theorem Only.foldl {α : Type} {l : List Part} (f : Dev → α → Dev) (hf : ∀ d x, Only l d (f d x)) (xs : List α) (d : Dev) :
    Only l d (xs.foldl f d) := by
  induction xs generalizing d with
  | nil => exact .refl l d
  | cons x t ih => exact (hf d x).trans (ih _)

/-- A change of the units `l` by a record update raises no event and writes no DRAM. -/
theorem Only.ofUpdate {l : List Part} {a b : Dev} (hm : b.mem = a.mem) (ho : b.out = a.out)
    (h : ∀ p, p ∉ l → p.exact a b) : Only l a b := ⟨h, hm, by rw [ho], ho ▸ List.prefix_rfl⟩

theorem emitAt_only (d : Dev) (k c v : Nat) : Only [] d (d.emitAt k c v) :=
  ⟨fun p _ => by cases p <;> first | exact ⟨rfl, rfl⟩ | rfl, rfl, rfl, List.prefix_append _ _⟩
theorem emit_only (d : Dev) (c v : Nat) : Only [] d (d.emit c v) := emitAt_only d c c v

/-- The event an operation raises is among those of its cycle. -/
theorem emit_mem (d : Dev) (c v : Nat) : (c, eventOf c v) ∈ (d.emit c v).out.events := List.mem_append_right _ (List.mem_singleton.mpr rfl)
theorem emitAt_mem (d : Dev) (k c v : Nat) : (k, eventOf c v) ∈ (d.emitAt k c v).out.events := List.mem_append_right _ (List.mem_singleton.mpr rfl)

theorem onChan_only (d : Dev) (c : Nat) (f : Mc → Mc) : Only [.channels] d (d.onChan c f) :=
  .ofUpdate rfl rfl (fun p hp => by cases p <;> first | exact ⟨rfl, rfl⟩ | rfl | exact absurd (List.mem_cons_self ..) hp)
theorem onEngine_only (d : Dev) (n : Nat) (f : Ce → Ce) : Only [.engines] d (d.onEngine n f) :=
  .ofUpdate rfl rfl (fun p hp => by cases p <;> first | exact ⟨rfl, rfl⟩ | rfl | exact absurd (List.mem_cons_self ..) hp)
theorem onSlot_only (d : Dev) (n : Nat) (f : Slot → Slot) : Only [.rails] d (d.onSlot n f) :=
  .ofUpdate rfl rfl (fun p hp => by cases p <;> first | exact ⟨rfl, rfl⟩ | rfl | exact absurd (List.mem_cons_self ..) hp)
theorem onRegion_only (d : Dev) (n : Nat) (f : Region → Region) : Only [.regions] d (d.onRegion n f) :=
  .ofUpdate rfl rfl (fun p hp => by cases p <;> first | exact ⟨rfl, rfl⟩ | rfl | exact absurd (List.mem_cons_self ..) hp)
theorem onTask_only (d : Dev) (n : Nat) (f : Task → Task) : Only [.tasks] d (d.onTask n f) :=
  .ofUpdate rfl rfl (fun p hp => by cases p <;> first | exact ⟨rfl, rfl⟩ | rfl | exact absurd (List.mem_cons_self ..) hp)
theorem onPort_only (d : Dev) (p : Port) (f : Fab → Fab) : Only [.ports] d (d.onPort p f) :=
  .ofUpdate (by cases p <;> rfl) (by cases p <;> rfl)
    (fun q hq => by cases q <;> first | (cases p <;> first | exact ⟨rfl, rfl⟩ | rfl) | exact absurd (List.mem_cons_self ..) hq)

/-- What a happening leaves the same: the units its work does. -/
theorem Only.happens {s : State} {f : Dev → Dev} {l : List Part} (ha : Stmt.Live s)
    (hm : s.d.ctl.mode ≠ .restore → (f s.d).ctl.mode ≠ .restore) (hl : Part.dram ∉ l) (h : Only l s.d (f s.d)) : SameBut l s.d (happen s f).d :=
  happen_same ha.1 hm h.mem ((h.same .dram hl).trans (by rw [ha.2]; rfl)) (fun p hp => Part.same_of_exact h.mem (h.same p hp))

/-- What the work of an accepted transaction leaves the same. -/
theorem Only.commits {z : Option Dev} {d e sd : Dev} {x : Xact} {st : Byte} {p : List Word} {l : List Part} (ho : d.out = Outbox.none)
    (hm : d.ctl.mode ≠ .restore → e.ctl.mode ≠ .restore) (hl : Part.dram ∉ l) (h : Only l (d.withReply x sd st p) e) :
    SameBut l d (endCommit z d e.everyCycle) :=
  Stmt.work_same (sd := sd) (x := x) (st := st) (p := p) hm h.mem
    ((h.same .dram hl).trans (by show (d.withReply x sd st p).out.mem = []; simp [Dev.withReply, ho, Outbox.none]))
    (fun q hq => Part.same_of_exact h.mem (h.same q hq))

/-- An event raised in the work of an accepted transaction is queued. -/
theorem commit_event {z : Option Dev} {d e : Dev} {k code param : Nat} (h : (k, eventOf code param) ∈ e.out.events) :
    Queued code param (endCommit z d e.everyCycle) := fun hl => endCommit_event ((everyCycle_all e).ev.subset h) hl

end Sys2Proof
end

