-- ==== Sys2Proof/Laws/Modes.lean ====
section
/-! SUPPORT. What each shared operation of the mode machine can change, said once. -/
namespace Sys2Proof
open Machine

/-- A record update of one unit. -/
theorem Only.withCtl (d : Dev) (c : Ctl) : Only [.mode] d { d with ctl := c } :=
  .ofUpdate rfl rfl (fun p hp => by cases p <;> first | exact ⟨rfl, rfl⟩ | rfl | exact absurd (List.mem_cons_self ..) hp)
theorem Only.withEu (d : Dev) (c : Eu) : Only [.plane] d { d with eu := c } :=
  .ofUpdate rfl rfl (fun p hp => by cases p <;> first | exact ⟨rfl, rfl⟩ | rfl | exact absurd (List.mem_cons_self ..) hp)
theorem Only.withClk (d : Dev) (c : Clk) : Only [.clock] d { d with clk := c } :=
  .ofUpdate rfl rfl (fun p hp => by cases p <;> first | exact ⟨rfl, rfl⟩ | rfl | exact absurd (List.mem_cons_self ..) hp)
theorem Only.withMc (d : Dev) (c : List Mc) : Only [.channels] d { d with mc := c } :=
  .ofUpdate rfl rfl (fun p hp => by cases p <;> first | exact ⟨rfl, rfl⟩ | rfl | exact absurd (List.mem_cons_self ..) hp)
theorem Only.withImg (d : Dev) (c : Img) : Only [.image] d { d with img := c } :=
  .ofUpdate rfl rfl (fun p hp => by cases p <;> first | exact ⟨rfl, rfl⟩ | rfl | exact absurd (List.mem_cons_self ..) hp)
theorem Only.withCip (d : Dev) (c : Cip) : Only [.cipher] d { d with cip := c } :=
  .ofUpdate rfl rfl (fun p hp => by cases p <;> first | exact ⟨rfl, rfl⟩ | rfl | exact absurd (List.mem_cons_self ..) hp)
theorem Only.withRail (d : Dev) (c : Rail) : Only [.rails] d { d with rail := c } :=
  .ofUpdate rfl rfl (fun p hp => by cases p <;> first | exact ⟨rfl, rfl⟩ | rfl | exact absurd (List.mem_cons_self ..) hp)
theorem Only.withEgy (d : Dev) (c : Egy) : Only [.energy] d { d with egy := c } :=
  .ofUpdate rfl rfl (fun p hp => by cases p <;> first | exact ⟨rfl, rfl⟩ | rfl | exact absurd (List.mem_cons_self ..) hp)
theorem Only.withSav (d : Dev) (c : Sav) : Only [.saving] d { d with sav := c } :=
  .ofUpdate rfl rfl (fun p hp => by cases p <;> first | exact ⟨rfl, rfl⟩ | rfl | exact absurd (List.mem_cons_self ..) hp)
theorem Only.withRst (d : Dev) (c : Rst) : Only [.restoring] d { d with rst := c } :=
  .ofUpdate rfl rfl (fun p hp => by cases p <;> first | exact ⟨rfl, rfl⟩ | rfl | exact absurd (List.mem_cons_self ..) hp)
theorem Only.withHerd (d : Dev) (c : Herd) : Only [.herd] d { d with herd := c } :=
  .ofUpdate rfl rfl (fun p hp => by cases p <;> first | exact ⟨rfl, rfl⟩ | rfl | exact absurd (List.mem_cons_self ..) hp)
theorem Only.withRoo (d : Dev) (c : Roo) : Only [.rooster] d { d with roo := c } :=
  .ofUpdate rfl rfl (fun p hp => by cases p <;> first | exact ⟨rfl, rfl⟩ | rfl | exact absurd (List.mem_cons_self ..) hp)

theorem closePath_only (d : Dev) (c : BitVec 3) : Only [.mode] d (d.closePath c) :=
  .ite ((Only.withCtl d _).trans ((emit_only _ _ _).mono (by simp))) (.withCtl d _)
theorem closePath_ctl (d : Dev) (c : BitVec 3) : (d.closePath c).ctl = { d.ctl with hostPath := false, pathCause := c } := by
  unfold Dev.closePath; dsimp only; split <;> rfl
/-- PATH_CLOSED is raised when the path was open. -/
theorem closePath_event {d : Dev} (c : BitVec 3) (h : d.ctl.hostPath = true) : (0x0104, eventOf 0x0104 c.toNat) ∈ (d.closePath c).out.events := by
  unfold Dev.closePath; simp only [h, if_true]; exact emit_mem _ _ _
theorem openPath_only (d : Dev) : Only [.mode] d d.openPath := (Only.withCtl d _).trans ((emit_only _ _ _).mono (by simp))
theorem herdLeave_only (d : Dev) (r : Nat) : Only [.herd] d (d.herdLeave r) :=
  .ite ((Only.withHerd d _).trans ((emit_only _ _ _).mono (by simp))) (.refl _ d)
theorem herdEnterCut_only (d : Dev) (o : Bool) (r : Nat) : Only [.herd] d (d.herdEnterCut o r) :=
  (Only.withHerd d _).trans ((emit_only _ _ _).mono (by simp))

/-! ### Copy engines -/

theorem cePreempted_only (d : Dev) (n : Nat) (c : BitVec 4) : Only [.engines] d (d.cePreempted n c) := by
  unfold Dev.cePreempted
  refine Only.trans ?_ (onEngine_only _ _ _)
  exact .ite ((onEngine_only _ _ _).trans ((emit_only _ _ _).mono (by simp))) (onEngine_only _ _ _)
theorem preemptEngines_only (d : Dev) (c : BitVec 4) : Only [.engines] d (d.preemptEngines c) :=
  Only.foldl _ (fun d n => .ite (onEngine_only d n _) (cePreempted_only d n c)) _ _
theorem ceReturn_only (d : Dev) (n : Nat) (k : Option Checkpoint) : Only [.engines] d (d.ceReturn n k) := by
  unfold Dev.ceReturn
  split
  · exact .refl _ d
  · exact .ite ((onEngine_only _ _ _).trans ((emit_only _ _ _).mono (by simp)))
      (.ite ((onEngine_only _ _ _).trans ((emit_only _ _ _).mono (by simp))) (onEngine_only _ _ _))
theorem returnCheckpoints_only (d : Dev) : Only [.engines] d d.returnCheckpoints :=
  Only.foldl _ (fun d n => ceReturn_only d n _) _ _

/-! ### The work that an entry to SAVE or SAFEHOLD stops -/

theorem endYoke_only (d : Dev) : Only [.channels] d d.endYoke := .withMc d _
theorem stopPasses_only (d : Dev) : Only [.channels, .tasks] d d.stopPasses :=
  Only.foldl _ (fun d c => by
    dsimp only
    split
    · have h : ∀ (p : Prop) [Decidable p] (f g : Mc → Mc), Only [.channels, .tasks] d (if p then d.onChan c f else d.onChan c g) :=
        fun p _ f g => .ite ((onChan_only _ _ _).mono (by simp)) ((onChan_only _ _ _).mono (by simp))
      exact .ite ((h _ _ _).trans ((onTask_only _ _ _).mono (by simp))) (h _ _ _)
    · exact .refl _ d) _ _
theorem stopTraining_only (d : Dev) : Only [.channels] d d.stopTraining :=
  Only.foldl _ (fun d c => by
    have e : ∀ (a : Dev) (k v : Nat), Only [.channels] a (a.emit k v) := fun a k v => (emit_only a k v).mono (by simp)
    have u : ∀ a : Dev, Only [.channels] a a.used := fun a => .ofUpdate rfl rfl (fun p _ => by cases p <;> first | exact ⟨rfl, rfl⟩ | rfl)
    exact .ite ((Only.ite ((onChan_only _ _ _).trans (((e _ _ _).trans (e _ _ _)).trans (u _))) (onChan_only _ _ _)).trans (e _ _ _)) (.refl _ d)) _ _
theorem stopTest_only (d : Dev) : Only [.rails, .energy, .tasks] d d.stopTest := by
  unfold Dev.stopTest
  dsimp only
  split
  · refine .ite (Only.trans ?_ ((onTask_only _ _ _).mono (by simp))) ?_
    · exact .ofUpdate rfl rfl (fun p hp => by cases p <;> first | exact ⟨rfl, rfl⟩ | rfl | exact absurd (by decide) hp)
    · exact .ofUpdate rfl rfl (fun p hp => by cases p <;> first | exact ⟨rfl, rfl⟩ | rfl | exact absurd (by decide) hp)
  · exact (Only.withRail d _).mono (by simp)
theorem chargerOff_only (d : Dev) : Only [.energy] d d.chargerOff := .withEgy d _
theorem chargerSet_only (d : Dev) (b : Bool) (c : Charger) : Only [.energy] d (d.chargerSet b c) := .withEgy d _
theorem chargerEval_only (d : Dev) : Only [.energy] d d.chargerEval := by
  unfold Dev.chargerEval
  refine .ite (chargerOff_only d) (.ite (chargerSet_only _ _ _) ?_)
  split
  · exact .ite (chargerSet_only _ _ _) (chargerSet_only _ _ _)
  · exact .ite (.ite (chargerSet_only _ _ _) (chargerSet_only _ _ _)) (.ite (chargerSet_only _ _ _) (chargerSet_only _ _ _))
theorem stopScrub_only (d : Dev) : Only [.image, .tasks] d d.stopScrub := by
  unfold Dev.stopScrub
  split
  · exact ((Only.withImg d _).mono (by simp)).trans ((onTask_only _ _ _).mono (by simp))
  · exact .refl _ d
theorem onEntry_only (d : Dev) (g : Nat) (f : GEntry → GEntry) : Only [.image] d (d.onEntry g f) := .withImg d _
theorem setDirty_only (d : Dev) (g : Nat) : Only [.image] d (d.setDirty g) := onEntry_only d g _
theorem abandonReads_only (d : Dev) : Only [.image, .channels] d d.abandonReads := by
  unfold Dev.abandonReads
  dsimp only
  refine Only.trans ?_ (Only.foldl (l := [.image, .channels]) _ (fun (d : Dev) (c : Copy) => (setDirty_only d c.granule).mono (by simp)) _ _)
  exact .ofUpdate rfl rfl (fun p hp => by cases p <;> first | exact ⟨rfl, rfl⟩ | rfl | exact absurd (by decide) hp)
theorem dropRestores_only (d : Dev) : Only [.restoring, .channels, .image] d d.dropRestores :=
  .ofUpdate rfl rfl (fun p hp => by cases p <;> first | exact ⟨rfl, rfl⟩ | rfl | exact absurd (by decide) hp)
theorem stopHeld_only (d : Dev) : Only [.plane] d d.stopHeld :=
  (Only.withEu d _).trans (Only.foldl _ (fun d _ => .ite ((emit_only _ _ _).mono (by simp)) (.refl _ d)) _ _)
theorem stopRooster_only (d : Dev) : Only [.rooster] d d.stopRooster := by
  unfold Dev.stopRooster
  dsimp only
  have h : ∀ (e : Dev) (p : Prop) [Decidable p] (c v : Nat), Only [.rooster] e (if p then e.emit c v else e) :=
    fun e p _ c v => .ite ((emit_only _ _ _).mono (by simp)) (.refl _ e)
  exact ((Only.withRoo d _).trans (h _ _ _ _)).trans (h _ _ _ _)

/-! ### Entering SAVE and SAFEHOLD -/

/-- The units an entry to SAVE can change. -/
def saveParts : List Part :=
  [.plane, .mode, .engines, .channels, .image, .rails, .energy, .saving, .restoring, .rooster, .tasks]

theorem saveRecord_only (d : Dev) (t : BitVec 3) : Only [.mode, .saving, .image, .energy] d (d.saveRecord t) := by
  unfold Dev.saveRecord
  refine Only.trans ((closePath_only d 2).mono (by simp)) ?_
  generalize d.closePath 2 = e
  exact ⟨fun p hp => by cases p <;> first | exact ⟨rfl, rfl⟩ | rfl | exact absurd (by decide) hp, rfl, rfl,
    (List.prefix_append _ _).trans (List.prefix_append _ _)⟩
theorem saveRecord_ctl (d : Dev) (t : BitVec 3) : (d.saveRecord t).ctl
    = { d.ctl with mode := .save, lastTrigger := t, hostPath := false, pathCause := 2, entry := none, entrySwitching := false } := by
  have h := closePath_ctl d 2
  exact congrArg (fun (c : Ctl) => { c with mode := .save, lastTrigger := t, entry := none, entrySwitching := false }) h
/-- The record of a SAVE entered, and its two events. -/
theorem saveRecord_sav (d : Dev) (t : BitVec 3) :
    (d.saveRecord t).sav.from_ = d.ctl.mode ∧ (d.saveRecord t).sav.classes = d.attrs ∧ (d.saveRecord t).sav.phase = 0
      ∧ (d.saveRecord t).sav.committed = false ∧ (d.saveRecord t).sav.abandoned = false := ⟨rfl, rfl, rfl, rfl, rfl⟩
theorem saveRecord_events (d : Dev) (t : BitVec 3) :
    (0x0110, eventOf 0x0110 (packBytes [(1, t.toNat), (1, d.ctl.mode.code)])) ∈ (d.saveRecord t).out.events
      ∧ (0x0114, eventOf 0x0114 (packBytes [(1, 0), (4, 0)])) ∈ (d.saveRecord t).out.events :=
  ⟨List.mem_append_left _ (emit_mem _ _ _), emit_mem _ _ _⟩

/-- The units that the work stopped by an entry to SAVE lies in. -/
def stopParts : List Part := [.plane, .engines, .channels, .image, .rails, .energy, .restoring, .rooster, .tasks]

/-- What the stops of an entry to SAVE can change: not the mode, nor the SAVE itself. -/
theorem saveStops_only (d : Dev) : Only stopParts d d.saveStops := by
  refine Only.trans ?_ (Only.mono (stopRooster_only _) (by simp [stopParts]))
  refine Only.trans ?_ (Only.mono (stopHeld_only _) (by simp [stopParts]))
  refine Only.trans ?_ (Only.mono (dropRestores_only _) (by simp [stopParts]))
  refine Only.trans ?_ (Only.mono (abandonReads_only _) (by simp [stopParts]))
  refine Only.trans ?_ (Only.mono (stopScrub_only _) (by simp [stopParts]))
  refine Only.trans ?_ (Only.mono (chargerOff_only _) (by simp [stopParts]))
  refine Only.trans ?_ (Only.mono (stopTest_only _) (by simp [stopParts]))
  refine Only.trans ?_ (Only.mono (stopTraining_only _) (by simp [stopParts]))
  refine Only.trans ?_ (Only.mono (stopPasses_only _) (by simp [stopParts]))
  exact Only.mono (endYoke_only _) (by simp [stopParts])

/-- The work of an entry to SAVE after its record. -/
theorem enterSave_rest (d : Dev) (t : BitVec 3) : Only stopParts (d.saveRecord t) (d.enterSave t) := by
  refine Only.trans ?_ (Only.mono (preemptEngines_only _ _) (by simp [stopParts]))
  refine Only.trans ?_ (Only.mono (Only.withImg _ _) (by simp [stopParts]))
  exact saveStops_only _

theorem enterSave_only (d : Dev) (t : BitVec 3) : Only saveParts d (d.enterSave t) :=
  ((saveRecord_only d t).mono (by simp [saveParts])).trans ((enterSave_rest d t).mono (by simp [saveParts, stopParts]))

theorem enterSave_ctl (d : Dev) (t : BitVec 3) : (d.enterSave t).ctl
    = { d.ctl with mode := .save, lastTrigger := t, hostPath := false, pathCause := 2, entry := none, entrySwitching := false } :=
  ((enterSave_rest d t).same .mode (by decide)).trans (saveRecord_ctl d t)

theorem enterSave_sav (d : Dev) (t : BitVec 3) : (d.enterSave t).sav = (d.saveRecord t).sav := (enterSave_rest d t).same .saving (by decide)

theorem enterSave_events (d : Dev) (t : BitVec 3) :
    (0x0110, eventOf 0x0110 (packBytes [(1, t.toNat), (1, d.ctl.mode.code)])) ∈ (d.enterSave t).out.events
      ∧ (0x0114, eventOf 0x0114 (packBytes [(1, 0), (4, 0)])) ∈ (d.enterSave t).out.events :=
  ⟨(enterSave_rest d t).ev.subset (saveRecord_events d t).1, (enterSave_rest d t).ev.subset (saveRecord_events d t).2⟩

/-- The units an entry to SAFEHOLD can change. -/
def safeParts : List Part := [.mode, .engines, .channels, .image, .restoring, .tasks]

theorem safeRecord_only (d : Dev) (ret : Mode) (c : Nat) : Only [.mode] d (d.safeRecord ret c) :=
  ((closePath_only d 4).trans ((emit_only _ 0x0130 c).mono (by simp))).trans (.withCtl _ _)

/-- The work of an entry to SAFEHOLD after its record. -/
theorem enterSafehold_rest (d : Dev) (ret : Mode) (c : Nat) :
    Only [.engines, .channels, .image, .restoring, .tasks] (d.safeRecord ret c) (d.enterSafehold ret c) := by
  refine Only.trans ?_ (Only.mono (preemptEngines_only _ _) (by simp))
  refine Only.trans ?_ (Only.mono (dropRestores_only _) (by simp))
  refine Only.trans ?_ (Only.mono (stopPasses_only _) (by simp))
  exact Only.mono (endYoke_only _) (by simp)

theorem enterSafehold_only (d : Dev) (ret : Mode) (c : Nat) : Only safeParts d (d.enterSafehold ret c) :=
  ((safeRecord_only d ret c).mono (by simp [safeParts])).trans ((enterSafehold_rest d ret c).mono (by simp [safeParts]))

theorem enterSafehold_ctl (d : Dev) (ret : Mode) (c : Nat) : (d.enterSafehold ret c).ctl
    = { d.ctl with mode := .safehold, returnMode := ret, hostPath := false, pathCause := 4, entry := none, entrySwitching := false } := by
  refine ((enterSafehold_rest d ret c).same .mode (by decide)).trans ?_
  exact congrArg (fun (k : Ctl) => { k with mode := .safehold, returnMode := ret, entry := none, entrySwitching := false }) (closePath_ctl d 4)

theorem enterSafehold_event (d : Dev) (ret : Mode) (c : Nat) : (0x0130, eventOf 0x0130 c) ∈ (d.enterSafehold ret c).out.events :=
  (enterSafehold_rest d ret c).ev.subset (emit_mem _ _ _)

theorem latchCause_only (d : Dev) (c : Nat) : Only safeParts d (d.latchCause c) := by
  unfold Dev.latchCause
  have h : ∀ k : Ctl, Only safeParts d { d with ctl := k } := fun k => (Only.withCtl d k).mono (by simp [safeParts])
  dsimp only
  split
  · exact (h _).trans (enterSafehold_only _ _ _)
  · exact (h _).trans (enterSafehold_only _ _ _)
  · exact (h _).trans ((emit_only _ _ _).mono (by simp))
  · exact h _

theorem clearCause_only (d : Dev) (c : Nat) : Only [.mode] d (d.clearCause c) :=
  .ite ((Only.withCtl d _).trans ((emitAt_only _ _ _ _).mono (by simp))) (.refl _ d)

/-! ### Ports, snapshots, the clock and the entry to OPERATE -/

theorem snapshot_only (d : Dev) (c s : Nat) : Only [.rails, .image] d (d.snapshot c s) := by
  unfold Dev.snapshot
  refine .ite (.refl _ d) (Only.trans ?_ ((emit_only _ _ _).mono (by simp)))
  exact .ofUpdate rfl rfl (fun p hp => by cases p <;> first | exact ⟨rfl, rfl⟩ | rfl | exact absurd (by decide) hp)

theorem portDown_only (d : Dev) (p : Port) (c : Nat) : Only [.ports] d (d.portDown p c) := by
  unfold Dev.portDown
  have h := (onPort_only d p fabDown).trans ((emit_only _ 0x0201 (packBytes [(1, portCode p), (1, c)])).mono (by simp))
  exact .ite h (h.trans ((emit_only _ _ _).mono (by simp)))
theorem portWake_only (d : Dev) (p : Port) : Only [.ports] d (d.portWake p) := .ite (onPort_only _ _ _) (.refl _ d)
theorem portFall_only (d : Dev) (p : Port) (c : Nat) : Only [.ports] d (d.portFall p c) := .ite (onPort_only _ _ _) (portDown_only _ _ _)

/-- What refresh, self-refresh and a change of data rate can change. -/
theorem hen_only {a b : Dev} (h : HenKeeps a b) : Only [.channels, .tasks] a b := by
  have f : ∀ {α : Type} (g : Dev → α), g { b with mc := a.mc, tasks := a.tasks, out := a.out } = g a := fun g => congrArg g h.rest
  refine ⟨fun p hp => ?_, f Dev.mem, ?_, h.ev⟩
  · cases p
    case ports => exact ⟨f Dev.fa, f Dev.fb⟩
    case dram => exact (congrArg Outbox.mem h.out :)
    case channels => exact absurd (by decide) hp
    case tasks => exact absurd (by decide) hp
    case plane => exact f Dev.eu
    case mode => exact f Dev.ctl
    case clock => exact f Dev.clk
    case ident => exact f Dev.ident
    case regions => exact f Dev.reg
    case engines => exact f Dev.ce
    case config => exact f Dev.dcfg
    case image => exact f Dev.img
    case cipher => exact f Dev.cip
    case rails => exact f Dev.rail
    case adc => exact f Dev.adc
    case energy => exact f Dev.egy
    case admission => exact f Dev.adm
    case saving => exact f Dev.sav
    case restoring => exact f Dev.rst
    case herd => exact f Dev.herd
    case rooster => exact f Dev.roo
    case thermal => exact f Dev.therm
    case jtag => exact f Dev.jtag
  · exact congrArg (fun o : Outbox => { o with mem := [] }) h.out

theorem clkSwitch_only (d : Dev) (b : Bool) : Only [.clock, .channels, .tasks] d (d.clkSwitch b) :=
  ((hen_only (clkSwitch_hen d b).1).mono (by simp)).trans ((Only.withClk { d.clkSwitch b with clk := d.clk } (d.clkSwitch b).clk).mono (by simp))

/-- An entry to OPERATE for a MODE_REQUEST, or for the return from RESTORE or SAFEHOLD, changes the mode machine, the clock, the
channels and the refresh tasks. -/
theorem entryOperate_only (d : Dev) (f : EntryFor) (h : f ≠ .resume) : Only [.mode, .clock, .channels, .tasks] d (d.entryOperate f) := by
  unfold Dev.entryOperate
  dsimp only
  refine .ite (.ite ((Only.withCtl d _).mono (by simp)) (((Only.withCtl d _).mono (by simp)).trans ((clkSwitch_only _ _).mono (by simp)))) ?_
  refine .ite (((Only.withCtl d _).mono (by simp)).trans ((hen_only (onPoint1_hen _ _)).mono (by simp))) ?_
  unfold Dev.entryFinish
  dsimp only
  split
  · exact ((Only.withCtl d _).mono (by simp)).trans ((openPath_only _).mono (by simp))
  · exact absurd rfl h
  · exact (Only.withCtl d _).mono (by simp)

end Sys2Proof
end

