-- ==== Sys2Proof/Laws/Sweep.lean ====
section
/-! SUPPORT. What sweeps without errors, and without a passing step, give; and how a run of training stages goes on. -/
namespace Sys2Proof.Machine

theorem stepPasses_nil (step : Nat) : stepPasses [] step = true := decide_eq_true rfl

theorem passesAll_nil (ranks : Nat) : passesAll [] ranks = fun _ => true := by
  funext step
  simp [passesAll, stepPasses_nil]

/-- A lane without an error passes at every delay. -/
theorem eyeOf_nil (ranks : Nat) : eyeOf [] ranks = (0, 256) := by
  rw [eyeOf, passesAll_nil]
  decide +kernel

/-- With no edge in the window round a stored high edge, the full range is swept. -/
theorem eyeNear_nil (ranks low high : Nat) (h : high < 223) : eyeNear [] ranks low high = (0, 256) := by
  have hr : edgeIn (fun _ => true) (high - 32) (min 255 (high + 32)) false = none := by
    simp only [edgeIn, List.find?_eq_none, List.mem_range]
    intro s hs
    simp
    omega
  simp only [eyeNear, passesAll_nil, hr]
  split
  · rename_i h2; cases h2
  · exact eyeOf_nil ranks

/-- A sweep in which the first beat is wrong at each of the first `n` delays. -/
def blockedTo (n : Nat) : Sweep := (List.range n).map (fun step => (step, 0, 1))

theorem arrived_blockedTo (n step : Nat) :
    arrived (blockedTo n) step = if step < n then listUpd trainPattern 0 (fun b => b ^^^ 1) else trainPattern := by
  induction n with
  | zero => rfl
  | succ n ih =>
    have h : arrived (blockedTo (n + 1)) step
        = if n = step then listUpd (arrived (blockedTo n) step) 0 (fun b => b ^^^ 1) else arrived (blockedTo n) step := by
      simp [arrived, blockedTo, List.range_succ, List.foldl_append]
    rw [h, ih]
    by_cases hs : n = step
    · simp [hs]
    · have : step < n + 1 ↔ step < n := by omega
      simp [hs, this]

/-- No delay passes on a lane whose first beat is wrong at each of them. -/
theorem passesAll_blocked (step : Nat) (h : step < 256) : passesAll [blockedTo 256] 1 step = false := by
  have hne : listUpd trainPattern 0 (fun b => b ^^^ 1) ≠ trainPattern := by
    have h0 : (listUpd trainPattern 0 (fun b => b ^^^ 1)).head? ≠ trainPattern.head? := by decide +kernel
    intro e
    exact h0 (by rw [e])
  simpa [passesAll, stepPasses, arrived_blockedTo, h] using hne

theorem longestRun_congr {p q : Nat → Bool} {n : Nat} (h : ∀ k < n, p k = q k) : longestRun p n = longestRun q n := by
  have fold : ∀ (l : List Nat) (a : (Nat × Nat) × (Nat × Nat)), (∀ k ∈ l, p k = q k) →
      l.foldl (fun (a : (Nat × Nat) × (Nat × Nat)) s =>
        let cur := if p s then (if a.1.2 = 0 then s else a.1.1, a.1.2 + 1) else (0, 0)
        (cur, if a.2.2 < cur.2 then cur else a.2)) a
      = l.foldl (fun (a : (Nat × Nat) × (Nat × Nat)) s =>
        let cur := if q s then (if a.1.2 = 0 then s else a.1.1, a.1.2 + 1) else (0, 0)
        (cur, if a.2.2 < cur.2 then cur else a.2)) a := by
    intro l
    induction l with
    | nil => intro a _; rfl
    | cons k t ih =>
      intro a hl
      simp only [List.foldl_cons, hl k (by simp)]
      exact ih _ (fun j hj => hl j (by simp [hj]))
  exact congrArg Prod.snd (fold (List.range n) _ (fun k hk => h k (List.mem_range.mp hk)))

/-- Such a lane has no eye. -/
theorem eyeOf_blocked : eyeOf [blockedTo 256] 1 = (0, 0) := by
  rw [eyeOf, longestRun_congr (q := fun _ => false) passesAll_blocked]
  decide +kernel

theorem eyeNear_blocked (low high : Nat) : eyeNear [blockedTo 256] 1 low high = (0, 0) := by
  have hr : ∀ lo hi rise, hi ≤ 255 → edgeIn (passesAll [blockedTo 256] 1) lo hi rise = none := by
    intro lo hi rise h
    simp only [edgeIn, List.find?_eq_none, List.mem_range]
    intro s hs
    simp [passesAll_blocked s (by omega)]
  simp only [eyeNear, hr _ (min 255 (low + 32)) _ (Nat.min_le_left ..)]
  exact eyeOf_blocked

/-- Only the record of a channel's commands may differ. -/
def LogsOnly (a b : Mc) : Prop := { b with commands := a.commands } = a

theorem LogsOnly.trans {a b c : Mc} (h : LogsOnly a b) (k : LogsOnly b c) : LogsOnly a c :=
  Eq.trans (show _ = { b with commands := a.commands } from congrArg (fun m : Mc => { m with commands := a.commands }) k) h

theorem LogsOnly.foldl {α : Type} (f : Mc → α → Mc) (hf : ∀ m x, LogsOnly m (f m x)) (l : List α) (m : Mc) : LogsOnly m (l.foldl f m) := by
  induction l generalizing m with
  | nil => rfl
  | cons x t ih => exact (hf m x).trans (ih _)

theorem log_only (m : Mc) (r : Word × Word) : LogsOnly m (m.log r) := rfl
theorem own_only (m : Mc) (cmd rank : Nat) : LogsOnly m (m.own cmd rank) := rfl

/-- The record of training commands changes nothing else. -/
theorem trainLog_only (m : Mc) : LogsOnly m m.trainLog := by
  unfold Mc.trainLog
  exact .foldl _ (fun m r => ((((own_only m 14 r).trans (own_only _ 11 r)).trans (log_only _ _)).trans
    (.foldl _ (fun m p => log_only m p) _ _)).trans ((own_only _ 5 r).trans (own_only _ 11 r))) _ _

theorem LogsOnly.eq {a b : Mc} (h : LogsOnly a b) : b = { a with commands := b.commands } :=
  congrArg (fun m : Mc => { m with commands := b.commands }) h

@[simp] theorem trainLog_train (m : Mc) : m.trainLog.train = m.train := by rw [(trainLog_only m).eq]
@[simp] theorem trainLog_stage (m : Mc) : m.trainLog.stage = m.stage := by rw [(trainLog_only m).eq]
@[simp] theorem trainLog_ranks (m : Mc) : m.trainLog.ranks = m.ranks := by rw [(trainLog_only m).eq]

/-- Point 1 trained. -/
def Mc.savePointDone (m : Mc) (w : PointSweep) : Mc := { (m.trainPoint 1 w).trainLog with point1Done := true }
/-- Point 0 trained. -/
def Mc.operatePointDone (m : Mc) (w : PointSweep) (temp : Int) : Mc :=
  { (m.trainPoint 0 w).trainLog with trained := true, stage := 5, passTemp := temp }

theorem mcStage_save {m : Mc} {w : PointSweep} (temp : Int) (h : m.stage = 4) (hp : m.point1Done = false)
    (hv : pointValid (m.trainPoint 1 w).train 1 = true) : mcStage m (.trainSave w) temp = some (true, m.savePointDone w) := by
  simp [mcStage, h, hp, hv, Mc.savePointDone]

theorem mcStage_operate {m : Mc} {w : PointSweep} (temp : Int) (h : m.stage = 4) (hp : m.point1Done = true)
    (hv : pointValid (m.trainPoint 0 w).train 0 = true) : mcStage m (.trainOperate w) temp = some (true, m.operatePointDone w temp) := by
  simp [mcStage, h, hp, hv, Mc.operatePointDone]

theorem savePointDone_train (m : Mc) (w : PointSweep) : (m.savePointDone w).train = (m.trainPoint 1 w).train := trainLog_train _
theorem savePointDone_stage (m : Mc) (w : PointSweep) : (m.savePointDone w).stage = m.stage := trainLog_stage _
theorem savePointDone_ranks (m : Mc) (w : PointSweep) : (m.savePointDone w).ranks = m.ranks := trainLog_ranks _
theorem operatePointDone_ranks (m : Mc) (w : PointSweep) (temp : Int) : (m.operatePointDone w temp).ranks = m.ranks := trainLog_ranks _

/-- A stage that passes, before the last one, is followed by the rest of the outcomes. -/
theorem fullRun_next {last : Nat} {temp : Int} {o : DramOutcome} {l : List DramOutcome} {m k : Mc} (h : mcStage m o temp = some (true, k))
    (hk : k.stage ≠ last) : fullRun last temp (o :: l) m = fullRun last temp l k := by
  simp [fullRun, h, hk]

/-- The last stage passes. -/
theorem fullRun_last {last : Nat} {temp : Int} {o : DramOutcome} {l : List DramOutcome} {m k : Mc} (h : mcStage m o temp = some (true, k))
    (hk : k.stage = last) : fullRun last temp (o :: l) m = some (true, k) := by
  simp [fullRun, h, hk]

/-- A stage fails. -/
theorem fullRun_fails {last : Nat} {temp : Int} {o : DramOutcome} {l : List DramOutcome} {m k : Mc} (h : mcStage m o temp = some (false, k)) :
    fullRun last temp (o :: l) m = some (false, k) := by
  simp [fullRun, h]

end Sys2Proof.Machine
end

