-- ==== Sys2Proof/WellFormed.lean ====
section
/-! DEFINITION. Which commands are well formed: unit numbers name units that exist, lists have the lengths the spec gives them,
and a request's variable parameters fill its PLEN. -/
namespace Sys2Proof

/-- PLEN without the expected STATE_SEQ (R95). -/
def ownLen (x : Xact) : Nat := x.plen.toNat - (if x.seq.isSome then 4 else 0)

/-- A DRAM location within a channel (Table 9.5). -/
def bankOk (channel rank bg bank : Nat) : Bool := channel < 4 && rank < 4 && bg < 8 && bank < 4

/-- A scan has 16 rail inputs and 4 diodes (R469). -/
def AdcScan.wf (s : AdcScan) : Bool := s.vs.length = 16 && s.td.length = 4

/-- A NAND geometry with room for a slot (R389, R395). -/
def FlashGeom.wf (g : FlashGeom) : Bool := 0 < g.planes && g.planes ≤ 4 && g.pagesPerBlock % 4 = 0

/-- A sweep names delays 0 to 255 and beats 0 to 1023 of the 64 bursts (R344). -/
def sweepOk (w : Sweep) : Bool := w.all (fun e => e.1 < 256 && e.2.1 < 1024)

/-- A lane's sweeps. -/
def LaneSweep.wf (l : LaneSweep) : Bool := l.read.length ≤ 4 && l.write.length ≤ 4 && l.read.all sweepOk && l.write.all sweepOk

/-- The five byte lanes of a point. -/
def PointSweep.wf (s : PointSweep) : Bool := s.lanes.length = 5 && s.lanes.all LaneSweep.wf

/-- A save read names a burst of a rank's training row and symbols of its codeword. -/
def SaveRead.wf (r : SaveRead) : Bool := r.rank < 4 && r.column < 64 && r.errors.all (fun e => e.1 < 80)

/-- Well-formed stage outcomes of the DRAM step. -/
def DramOutcome.wf : DramOutcome → Bool
  | .rzq _ => true
  | .init _ _ rfm => rfm.length = 4
  | .ranks _ => true
  | .trainSave s => s.wf
  | .trainOperate s => s.wf
  | .probe a b c d e f => a ≤ 5 && b ≤ 5 && c ≤ 5 && d ≤ 5 && e ≤ 5 && f ≤ 5
  | .check => true

/-- A codeword is one of a page's 17; an attempt names distinct bits of it, data and parity, the first
at least one (Table 11.2, R393). -/
def WordRead.wf (w : WordRead) : Bool :=
  w.word ≤ 16 && !(w.attempts.headD []).isEmpty && w.attempts.all (fun l => decide l.Nodup && l.all (· < if w.word = 16 then 1776 else 9200))

/-- A sector is one of a page's four, with its 32 bytes of metadata and 4 096 of data. -/
def SectorRead.wf (r : SectorRead) : Bool := r.sector < 4 && r.info.length = 32 && r.data.length = 4096

/-- A half of the record area. -/
def RecordSet.wf (r : RecordSet) : Bool := r.hist.length = 8 && r.mirror.length ≤ 8

/-- Well-formed stage outcomes of the IMAGE step. -/
def ImageOutcome.wf : ImageOutcome → Bool
  | .params present gs => gs.length = ((List.range 32).filter (fun i => present.getLsbD i)).length && gs.all FlashGeom.wf
  | .records _ found reads => reads.all WordRead.wf && (match found with | some l => l.length ≤ 2 && l.all RecordSet.wf | none => true)
  | .headers found reads => reads.all WordRead.wf && (match found with | some hs => hs.all (fun h => h.hkind ≤ 4) | none => true)
  | .classify => true
  | .loadMap es reads altered =>
    reads.all WordRead.wf && altered.all SectorRead.wf && (match es with | some l => l.all (fun p => p.1 < 2 ^ 24) | none => true)
  | .zeroFill => true
  | .finish => true

/-- The transaction of a host command. -/
def Instr.xact : Instr → Option Xact
  | .nop x => some x
  | .ident x => some x
  | .attest x _ _ => some x
  | .fetch x _ => some x
  | .eventPop x _ => some x
  | .ledgerRead x _ => some x
  | .ledgerReadBlock x _ _ => some x
  | .ledgerWrite x _ _ => some x
  | .ledgerModify x _ _ _ => some x
  | .portEnWrite x _ _ => some x
  | .admitModeWrite x _ => some x
  | .taskPeriodWrite x _ _ => some x
  | .modeRequestOpen x _ => some x
  | .modeRequestClose x _ _ => some x
  | .saveArm x => some x
  | .saveDisarm x => some x
  | .saveNow x => some x
  | .restoreBegin x _ => some x
  | .restoreAdmit x => some x
  | .safeholdEnter x => some x
  | .safeholdRelease x => some x
  | .regionStage x _ _ _ _ _ _ => some x
  | .regionCommit x => some x
  | .epochQuery x _ => some x
  | .copySubmit x _ _ _ => some x
  | .copyCancel x _ _ _ => some x
  | .copyResume x _ => some x
  | .channelThaw x _ => some x
  | .diagFetch x _ _ _ _ _ => some x
  | .trainNowPass x _ => some x
  | .trainNowFull x _ _ => some x
  | .imageInfo x => some x
  | .imageDiscard x _ => some x
  | .checkpointFlush x => some x
  | .keyInstall x _ _ => some x
  | .keyRotateImage x => some x
  | .keyRotateDomain x _ => some x
  | .keyStatusSummary x => some x
  | .keyStatusCert x _ => some x
  | .bind x _ _ _ => some x
  | .railLoad x _ _ _ _ => some x
  | .railRun x _ => some x
  | .snapshotReadDie x _ _ => some x
  | .snapshotReadFlash x _ _ _ => some x
  | .energyTestCapacitance x => some x
  | .energyTestCalibrate x _ => some x
  | .herdConfigJoin x _ _ _ => some x
  | .herdConfigLeave x _ _ _ => some x
  | .roosterLoad x _ _ => some x
  | .roosterSend x _ _ => some x
  | .lock x => some x
  | .badOpcode x _ => some x
  | _ => none

/-- The order of a transaction's edges: its snapshot, its reply, its commit, the cycle of the commit after the reply (R100, R115, R627). -/
def Xact.wf (x : Xact) : Bool := x.replyBack ≤ x.snapBack && (!x.sameCycle || 1 ≤ x.replyBack)

/-- When class Q work finished, if it did before the reply: at or after the snapshot (R103). -/
def doneOk (x : Xact) (done : Option Nat) : Bool :=
  match done with
  | some k => x.replyBack ≤ k && k ≤ x.snapBack
  | none => true

/-- The operands of well-formed commands, apart from the transaction. -/
def Instr.wfOperands : Instr → Bool
  | .attest x _ done => doneOk x done
  | .diagFetch x _ _ _ _ done => doneOk x done
  | .snapshotReadDie x _ done => doneOk x done
  | .snapshotReadFlash x _ _ done => doneOk x done
  | .railLoad x _ _ _ es => es.length + 3 = ownLen x
  | .roosterLoad x _ data => data.length + 2 = ownLen x
  | .configDone f => f.cert.length ≤ 4096
  | .dramStageDone c o => c < 4 && o.wf
  | .imageStageDone o => o.wf
  | .domainFault n _ => n < 7
  | .domainGood n => n < 7
  | .railGood s => s < 16
  | .railOff s => s < 16
  | .railOffTimeout s => s < 16
  | .railUpTimeout s => s < 16
  | .seqDelayExpire s => s < 16
  | .railFault s c => s < 16 && c < 3
  | .adcScan s => s.wf
  | .wr64 _ _ data _ => data.length = 64
  | .wr256 _ _ data _ => data.length = 256
  | .blockLockLost _ lane => lane < 8
  | .channelCommandSlot c i => c < 4 && i.errors.all (fun e => e.1 < 80)
  | .refreshTick c r => c < 4 && r < 4
  | .mr4Poll c rs => c < 4 && rs.length ≤ 16
  | .rowIdleClose c r g b => bankOk c r g b
  | .yokeWindowEnd c => c < 4
  | .alertNParity c r => c < 4 && r < 4
  | .captureKeeperCopy c => c < 4
  | .retrainPassStart c => c < 4
  | .retrainPauseStart c => c < 4
  | .retrainPauseDone c r => c < 4 && r.saves.all SaveRead.wf
  | .entryRetrainDone sweeps saves =>
    sweeps.length = 4 && sweeps.all (fun l => l.all LaneSweep.wf) && saves.length ≤ 4 && saves.all (fun l => l.all SaveRead.wf)
  | .fullTrainDone c os saves => c < 4 && os.all DramOutcome.wf && saves.all SaveRead.wf
  | .copyChunkStart n => n < 4
  | .copyChunkDone n _ => n < 4
  | .flashReadDone _ reads altered => reads.all WordRead.wf && altered.all SectorRead.wf
  | .bindDone es reads altered =>
    reads.all WordRead.wf && altered.all SectorRead.wf && (match es with | some l => l.all (fun p => p.1 < 2 ^ 24) | none => true)
  | .flashTargetLost c t => c < 8 && t < 4
  | .sectorVerdict _ s _ => s < 16
  | .verdictTimeout _ s => s < 16
  | .taskDueMissed t c => t < 5 && c < 4
  | _ => true

/-- Well-formed commands. -/
def Instr.wf (i : Instr) : Bool := i.wfOperands && (match i.xact with | some x => x.wf | none => true)

end Sys2Proof
end

