-- ==== Sys2Proof/Tests/Slice0.lean ====
section
/-! SUPPORT. The author's tests: well-formedness, worked values of the spec, and a witness for the hypotheses of each statement. -/
namespace Sys2Proof.Tests
open Sys2Proof Sys2Proof.Machine Sys2Proof.Stmt
set_option Elab.async false

/-! ### Small states -/

/-- A right request with `n` bytes of parameters, without an expected STATE_SEQ. -/
def tx (n : Nat) : Xact := 
  { tag := 5, seq := none, rsv := false, plen := BitVec.ofNat 8 n, crcOk := true, snapBack := 0, replyBack := 0, sameCycle := false }

/-- A trained channel of one rank of 8 Gb devices. -/
def chanUp : Mc := { Mc.reset with
  used := true, trained := true, stage := 7, train := List.replicate 10 0x80806464
  edges := List.replicate 5 { rdLow := 78, rdHigh := 177, wrLow := 78, wrHigh := 177 } }

/-- A rail slot with an entry, in state `st`. -/
def slotIn (st : RailState) : Slot := { Slot.reset with entry := 0x9801000F00008000, st := st, pg := true, vs := 0x400, enabled := true }

/-- The geometry of one NAND target. -/
def geom : FlashGeom :=
  { manufacturer := 1, model := 1, retries := 3, pageBytes := 16384, spareBytes := 2240, pslc := true, luns := 1, planes := 2, pagesPerBlock := 64
    blockGroups := 64, endurance := some 50000, nativeEndurance := 3000 }

/-- OPERATE with the path open: two channels of DRAM, one rail up, both ports in ACTIVE, a store without an image. -/
def opDev : Dev :=
  { Dev.reset with
    ctl := { Ctl.reset with mode := .operate, step := .done, hostPath := true, resetLow := false, uptimeMs := 100000 }
    clk := { Clk.reset with src := false, target := false, refGood := true, pllLocked := true }
    ident := { Ident.reset with sampled := true, cert := [1, 2, 3] }
    fa := { Fab.reset with link := .active, rate := 3, width := 8, holdsState := true, txLimit := 512 }
    fb := { Fab.reset with link := .active, rate := 3, width := 8, holdsState := true, txLimit := 512 }
    mc := [chanUp, chanUp, { Mc.reset with stage := 7 }, { Mc.reset with stage := 7 }]
    dcfg := { Dcfg.reset with chUsed := 3, ways := 1, installedMib := 4096, visibleMib := 4032, keeperMib := 4, granules := 64512, reference := some 0 }
    img := { Img.reset with usable := true, state := 0, targetMap := 0x11111111, geom := geom }
    cip := { Cip.reset with bound := true, imkGen := 1, keyed := 1, domKey := [1, 2, 3, 4, 5, 6, 7] }
    rail := { Rail.reset with header := 0x01020064, st := .up, slots := Rail.reset.slots.set 0 (slotIn .up) }
    adc := { Adc.reset with vin := 2000, vstore := 1600, ichg := 1900 }
    egy := { Egy.reset with
      vFull := 5000, vFloor := 3000, vinScale := 6000, vstoreScale := 3000, capMf := 20000, esr := 100, charger := .charging, chgEn := true
      started := true } }

/-- The block with a device. -/
def on (d : Dev) : State := { State.reset with d := d }

def ctl (f : Ctl → Ctl) (d : Dev) : Dev := { d with ctl := f d.ctl }
def eu (f : Eu → Eu) (d : Dev) : Dev := { d with eu := f d.eu }
def img (f : Img → Img) (d : Dev) : Dev := { d with img := f d.img }
def cip (f : Cip → Cip) (d : Dev) : Dev := { d with cip := f d.cip }
def egy (f : Egy → Egy) (d : Dev) : Dev := { d with egy := f d.egy }
def rail (f : Rail → Rail) (d : Dev) : Dev := { d with rail := f d.rail }
def herd (f : Herd → Herd) (d : Dev) : Dev := { d with herd := f d.herd }
def roo (f : Roo → Roo) (d : Dev) : Dev := { d with roo := f d.roo }
def fa (f : Fab → Fab) (d : Dev) : Dev := { d with fa := f d.fa }
def mc (f : Mc → Mc) (d : Dev) : Dev := { d with mc := d.mc.modify 0 f }
def ce (f : Ce → Ce) (d : Dev) : Dev := { d with ce := d.ce.modify 0 f }

def op (f : Dev → Dev) : State := on (f opDev)
def closed : Dev → Dev := ctl (fun c => { c with hostPath := false, pathCause := 1 })
def armed : Dev → Dev := ctl (fun c => { c with saveArmed := true })
def locks : Dev → Dev := eu (fun e => { e with locked := true })
def startup (step : SStep) : Dev → Dev := ctl (fun c => { c with mode := .startup, step := step, hostPath := false })
def waitRails : Dev → Dev := startup .waitRails
def inSave : Dev → Dev := fun d =>
  { ctl (fun c => { c with mode := .save, hostPath := false, saveArmed := true }) d with sav := { Sav.reset with bound := 100 } }
def safe : Dev → Dev := ctl (fun c => { c with mode := .safehold, hostPath := false, pathCause := 4, safeholdCauses := 1 })
def inRestore : Dev → Dev := fun d =>
  { ctl (fun c => { c with mode := .restore, hostPath := false, pathCause := 5, saveArmed := true }) d with
    rst := { Rst.reset with unrestored := [3], total := 1 } }
def herdArmed : Dev → Dev := herd (fun h => { h with joined := true, line := true, st := 7 })

/-- An entry of the working map that names a slot. -/
def entry (slot : Word) (dirty : Bool) : GEntry := { st := 1, taint := false, dirty := dirty, stale := false, genLo := 5, slot := slot }

/-- A header without image keys; its generation is 9. -/
def header : Header :=
  { hkind := 0, generation := 9, seqReserve := 0, commitCause := 0, flags := 0, granules := 1, unsaved := 0, tainted := 0, rekeyBoundary := 0
    keeperPage := 0, installedMib := 4096, bindingId := 0, escrowCheck := 0, keyGen := 1, oldKeyGen := 1, wrapDev := 0, wrapEsc := 0
    segmentDir := [], auth := 0, crc := 0 }

/-- A slot of granule `g` at an address. -/
def slotAt (a : Word) (g : Nat) (data : List Host.Cell) : FSlot :=
  { addr := a, kind := 1, index := g, copyGen := 5, keyGen := 1, taint := false, data := data, parts := [], key := 9 }

/-- A store with an image of one granule, discovered as `st`. -/
def image (st : Byte) : Dev → Dev := img (fun i =>
  { i with
    state := st, generation := 9, gmap := [(3, entry 0x1000 false)], committed := [(3, entry 0x1000 false)], candidate := some header
    slots := [slotAt 0x1000 3 [(3, 7), (70, 9)]] })

theorem sent_tx {k n : Nat} {s : State}
    (h : s.d.out = Outbox.none ∧ s.d.portLive = true ∧ (s.view (tx k)).alive = true ∧ (tx k).plen.toNat = n) : Sent (tx k) n s :=
  ⟨h.1, h.2.1, h.2.2.1, rfl, rfl, h.2.2.2, by intro q hq; cases hq⟩

/-! ### Well-formedness: for each check an ill-formed command -/

def noXact : Xact := { tx 0 with tag := 0 }
def badGeom : FlashGeom :=
  { geom with planes := 0 }
def shortRecords : RecordSet :=
  { valid := true, serial := 1, blocks := [], bad := [], scrubHours := 168, ratedCycles := none, usedPages := 0, lifePages := 0, serviceDays := 0, peMax := 0, peAvg := 0, badBlocks := 0, scrubPasses := 0
    capMf := 0, esr := 0, testAge := 0, costFixed := 0, costPj := 0, calibrated := false, hist := [], tMax := 0, mirror := [] }
def shortScan : AdcScan := { vs := [], vin := 0, vstore := 0, ichg := 0, die := 0, td := [], pg := 0 }
def wrongHeader : Header := { header with hkind := 5 }
def wrongWord : WordRead := { page := 0, word := 17, attempts := [[0]] }
def wrongSector : SectorRead := { page := 0, sector := 4, info := List.replicate 32 0, data := [], tag := 0 }
def wrongSave : SaveRead := { rank := 4, column := 0, errors := [] }
/-- A training of a point that finds nothing on its five lanes. -/
def noPoint : PointSweep := { ca := [], lanes := List.replicate 5 noLane }

/-- The commands that each check of `Instr.wf` refuses, one for each check. -/
def illFormed : List Instr :=
  [.railLoad noXact 0 0 1 [1, 2, 3, 4], .roosterLoad noXact 0 [1], .configDone { serial := 0, herdAddr := 0, dus := 0, cert := List.replicate 4097 0 }
   , .dramStageDone 4 .check, .dramStageDone 0 (.init true 0 []), .dramStageDone 0 (.trainSave { noPoint with lanes := [] })
   , .dramStageDone 0 (.trainOperate { noPoint with lanes := List.replicate 5 { noLane with read := [[(256, 0, 1)]] } })
   , .dramStageDone 0 (.probe 6 0 0 0 0 0)]
  ++ [.imageStageDone (.params 1 []), .imageStageDone (.params 1 [badGeom]), .imageStageDone (.records [] (some [shortRecords]) [])
      , .imageStageDone (.records [] none [wrongWord]), .imageStageDone (.headers (some [wrongHeader]) []), .imageStageDone (.headers none [wrongWord])
      , .imageStageDone (.loadMap (some [(2 ^ 24, 0)]) [] []), .imageStageDone (.loadMap none [] [wrongSector])]
  ++ [.nop { noXact with replyBack := 1 }, .lock { noXact with sameCycle := true }, .fetch { noXact with snapBack := 1, replyBack := 2 } 0
      , .attest noXact 0 (some 1)]
  ++ [.domainFault 7 false, .domainGood 7, .railGood 16, .railOff 16, .railOffTimeout 16, .railUpTimeout 16, .seqDelayExpire 16, .railFault 16 0
      , .railFault 0 3, .adcScan shortScan]
  ++ [.wr64 .fa 0 [] 0, .wr256 .fb 0 [] 0, .blockLockLost .fa 8, .channelCommandSlot 4 ⟨[], [], [], 0⟩, .channelCommandSlot 0 ⟨[], [], [(80, 1)], 0⟩
      , .refreshTick 0 4, .refreshTick 4 0, .mr4Poll 4 [], .mr4Poll 0 (List.replicate 17 (0, false, false))]
  ++ [.rowIdleClose 0 0 8 0, .rowIdleClose 0 0 0 4, .rowIdleClose 0 4 0 0, .rowIdleClose 4 0 0 0, .yokeWindowEnd 4, .alertNParity 4 0
      , .alertNParity 0 4, .captureKeeperCopy 4, .retrainPassStart 4, .retrainPauseStart 4]
  ++ [.retrainPauseDone 4 ⟨0, 0, 0, 0, []⟩, .retrainPauseDone 0 ⟨0, 0, 0, 0, [wrongSave]⟩, .entryRetrainDone [[]] []
      , .entryRetrainDone [[], [], [], []] [[wrongSave]], .fullTrainDone 4 [] [], .fullTrainDone 0 [.probe 6 0 0 0 0 0] []
      , .fullTrainDone 0 [] [wrongSave], .copyChunkStart 4, .copyChunkDone 4 false]
  ++ [.flashReadDone 0 [wrongWord] [], .flashReadDone 0 [] [wrongSector], .bindDone none [wrongWord] [], .bindDone (some [(2 ^ 24, 0)]) [] []
      , .flashTargetLost 8 0, .flashTargetLost 0 4, .sectorVerdict 0 16 0, .verdictTimeout 0 16, .taskDueMissed 5 0, .taskDueMissed 0 4]

theorem test_ill_formed_refused : ∀ c ∈ illFormed, c.wf = false := by decide +kernel

theorem test_well_formed_accepted : ∀ c ∈ [Instr.railLoad { noXact with plen := 7 } 0 0 1 [1, 2, 3, 4], .lock noXact, .domainFault 6 true
    , .channelCommandSlot 3 ⟨[], [], [(79, 1)], 0⟩, .dramStageDone 3 (.probe 5 5 5 5 5 5), .dramStageDone 0 (.trainSave noPoint), .railFault 15 2
    , .wr64 .fb 0 (List.replicate 64 0) 0, .attest { noXact with snapBack := 2, replyBack := 1, sameCycle := true } 0 (some 2)], c.wf = true := by
  decide +kernel

theorem test_no_row_gives_bits : decodeTableWord 8 0 = none := rfl

/-! ### Worked values of the spec -/

/-- R98: the check value of CRC-16 over the ASCII digits 1 to 9. -/
theorem test_crc16_check : crc16 [0x31, 0x32, 0x33, 0x34, 0x35, 0x36, 0x37, 0x38, 0x39] = 0x29B1 := by decide +kernel

/-- Worked case of chapter 4, popping one event: the request's CRC bytes F2 82. -/
theorem test_event_pop_request : requestPacket { noXact with tag := 5, plen := 1 } 0x04 [1] = [0xA5, 0x04, 0x14, 0x01, 0x01, 0xF2, 0x82] := by
  decide +kernel

/-- The same worked case: the reply to the snapshot with STATE_SEQ 0x21, and what the commit leaves in the queue. -/
theorem test_event_pop_reply :
    (match exec (.eventPop { noXact with tag := 5, plen := 1 } 1) (op (eu fun e => { e with
        stateSeq := 0x21, queue := [{ code := 0x0100, param := 0 }, { code := 0x0101, param := 1 }] })) with
     | .next t => (t.d.eu.reply.map Reply.packet, t.d.eu.queue)
     | _ => (none, []))
    = (some ([0x5A, 0x14, 0x00, 0x04, 0x00, 0x00, 0x00, 0x21, 0x01, 0x00, 0x00, 0x00, 0x01, 0x00, 0x00, 0x00, 0x00, 0x00, 0x00, 0x00, 0xA4, 0x06])
      , [{ code := 0x0101, param := 1 }]) := by decide +kernel

/-- Worked case of chapter 5, staging a pattern region: the request's CRC bytes E5 3F, and what is staged. -/
theorem test_region_stage_request : requestPacket { noXact with tag := 12, plen := 10 } 0x20 [0x03, 0x01, 0x18, 0, 0, 0x1B, 0xFF, 0xFF, 0x37, 0x12]
    = [0xA5, 0x20, 0x30, 0x0A, 0x03, 0x01, 0x18, 0, 0, 0x1B, 0xFF, 0xFF, 0x37, 0x12, 0xE5, 0x3F] := by decide +kernel
theorem test_region_stage :
    (match exec (.regionStage { noXact with tag := 12, plen := 10 } 3 1 0x180000 0x1BFFFF 0x37 0x12) (op id) with
     | .next t => (t.d.eu.reply.map Reply.packet, (t.d.reg.regions.getD 3 Region.reset).staged)
     | _ => (none, none))
    = (some [0x5A, 0x30, 0x00, 0x00, 0x09, 0x39]
      , some { enable := true, rights := 0x37, saveClass := 0, domain := 2, hint := 1, base := 0x180000, limit := 0x1BFFFF }) := by decide +kernel

/-- Worked case of chapter 9, mapping one address: four ways, grain 4 KiB, two ranks of 16 GiB a channel; the column is that of the burst. -/
theorem test_mapping : interleave 4 (grainBytes 3) (2 * rankBytes 2) 0xA1B2C3D40 = (3, 0x286CB0D40)
    ∧ locIn 2 3 0x286CB0D40 = { channel := 3, rank := 0, bg := 5, bank := 2, row := 82789, column := 848 / 16 } := by decide +kernel

/-- Worked case of chapter 8: the chunks of the REPLICATE descriptor. -/
theorem test_replicate_chunks :
    ({ id := 0, bits := 0x380000180010000000000018000000000FFFC000000040000000000000000000 } : Desc).chunks = 262128 := by decide +kernel

/-- Worked case of chapter 11: the daily allowance of an ageing M-128. -/
theorem test_allowance : allowanceMib (160 * 2 ^ 14) 30000 (1400000 * 2 ^ 16) 2000 [60000, 0, 0, 0, 50000, 0, 18000, 3400] = 617738 := by decide +kernel

/-- Worked case of chapter 17: the beacon in SAVE, its CRC, its length in units and its carrier. -/
theorem test_beacon : crc8 [0x10, 0x3C, 0x7A, 0x43, 0x50, 0x00] = 0xC7
    ∧ (frameBits [0x10, 0x3C, 0x7A, 0x43, 0x50, 0x00, 0xC7]).length = 165
    ∧ ((frameBits [0x10, 0x3C, 0x7A, 0x43, 0x50, 0x00, 0xC7]).filter id).length = 65 ∧ carrier 38 false = (10526, 2631) := by decide +kernel
theorem test_beacon_frame : (op (fun d => roo (fun r => { r with shortId := 0x3C7A }) { inSave d with
      sav := { Sav.reset with phase := 3, setSize := 10, finished := 8 } })).d.beaconFrame = [0x10, 0x3C, 0x7A, 0x43, 0x50, 0x00, 0xC7] := by
  decide +kernel

/-- Worked case of chapter 10: bit 3 of data byte 37 is bit 6 of symbol 23. -/
theorem test_codeword_place : (rsSymbols ((List.replicate 64 (0 : Byte)).set 37 8)).getD 23 0 = 0x40 := by decide +kernel

/-! ### Witnesses: the block and the transactions -/

theorem witness_StepKeepsInv : ∃ t, Inv (op id) ∧ step { op id with pending := [.lock (tx 0)] } = .next t :=
  ⟨_, ⟨by decide +kernel, by decide +kernel, by decide +kernel⟩, rfl⟩

theorem witness_StateSeqCertifies : ∃ t, uncounted (.nop (tx 0)) = false
    ∧ exec (.nop (tx 0)) (op (eu fun e => { e with stateSeq := 0xFFFFFFFF })) = .next t
    ∧ t.d.eu.stateSeq = (op (eu fun e => { e with stateSeq := 0xFFFFFFFF })).d.eu.stateSeq
    ∧ (op (eu fun e => { e with stateSeq := 0xFFFFFFFF })).d.eu.stateSeq ≠ 0 :=
  ⟨_, rfl, rfl, by decide +kernel, by decide +kernel⟩

theorem witness_StateSeqMovesByOne : ∃ t, exec (.lock (tx 0)) (op id) = .next t := ⟨_, rfl⟩

theorem witness_BadCrcHasNoEffect : xactOf (.lock { tx 252 with crcOk := false }) = some { tx 252 with crcOk := false }
    ∧ (op id).d.out = Outbox.none ∧ (op id).d.portLive = true ∧ { tx 252 with crcOk := false }.crcOk = false
    ∧ { tx 252 with crcOk := false }.plen.toNat ≤ 252 := by
  with_reducible (repeat' apply And.intro)
  all_goals first | exact sent_tx (by decide +kernel) | decide +kernel

theorem witness_SaveDeniesCommands : ∃ t, xactOf (.lock (tx 0)) = some (tx 0) ∧ everywhere (.lock (tx 0)) = false
    ∧ ((op inSave).d.out = Outbox.none ∧ (op inSave).d.portLive = true ∧ ((op inSave).view (tx 0)).ctl.mode = .save)
    ∧ exec (.lock (tx 0)) (op inSave) = .next t := ⟨_, rfl, rfl, by decide +kernel, rfl⟩

theorem witness_LockDeniesCommands : ∃ t, xactOf (.saveDisarm (tx 0)) = some (tx 0) ∧ locked (.saveDisarm (tx 0)) = true
    ∧ ((op locks).d.out = Outbox.none ∧ (op locks).d.portLive = true ∧ ((op locks).view (tx 0)).eu.locked = true)
    ∧ exec (.saveDisarm (tx 0)) (op locks) = .next t := ⟨_, rfl, rfl, by decide +kernel, rfl⟩

theorem witness_ReadsChangeNothing : Sent (tx 0) 0 (op id) ∧ Sent (tx 4) 4 (op id) ∧ Sent (tx 1) 1 (op id)
    ∧ (16 ≤ (16 : Byte).toNat ∧ (31 : Byte).toNat < 32) := by
  with_reducible (repeat' apply And.intro)
  all_goals first | exact sent_tx (by decide +kernel) | decide +kernel

theorem witness_LedgerReadsReduceCounters : Sent (tx 2) 2 (op id) ∧ (tx 2).snapBack = 0
    ∧ (Sent (tx 3) 3 (op id) ∧ 1 ≤ (64 : Byte).toNat ∧ (64 : Byte).toNat ≤ 64 ∧ (0xFFC0 : BitVec 16).toNat + (64 : Byte).toNat ≤ 0x10000)
    ∧ (1 ≤ (1 : Byte).toNat ∧ (0xFFFF : BitVec 16).toNat + (1 : Byte).toNat ≤ 0x10000) := by
  with_reducible (repeat' apply And.intro)
  all_goals first | exact sent_tx (by decide +kernel) | decide +kernel

/-- A full event queue after a loss. -/
def fullQueue : State := op (eu fun e => { e with queue := List.replicate 32 (eventOf 0x100 0), lost := 3 })

theorem witness_EventPopTakesOldest :
    (Sent (tx 1) 1 fullQueue ∧ (32 : Byte).toNat ≤ 32 ∧ fullQueue.d.eu.queue.length ≤ 32
      ∧ 0 < min (32 : Byte).toNat (fullQueue.view (tx 1)).eu.queue.length ∧ fullQueue.d.eu.queue ≠ [] ∧ fullQueue.d.eu.lost ≠ 0
      ∧ fullQueue.shared (tx 1) = none)
    ∧ min (0 : Byte).toNat (fullQueue.view (tx 1)).eu.queue.length = 0
    ∧ (Sent (tx 1) 1 (op id) ∧ (op id).d.eu.queue = [] ∧ (op id).d.eu.lost = 0) := by
  with_reducible (repeat' apply And.intro)
  all_goals first | exact sent_tx (by decide +kernel) | decide +kernel

/-- A channel that holds a capture. -/
def captured : State := op (mc fun m => { m with captureValid := true, capture := List.replicate 160 1 })

theorem witness_QueriesReplyOrHold :
    (inORH (captured.view (tx 5)) = true ∧ holds (captured.view (tx 5)) (tx 5).tag = false ∧ (captured.atReply (tx 5)).eu.held.length < 8)
    ∧ (∀ n ∈ [2, 5, 48], Unstopped (tx n) captured ∧ captured.finished (tx n) none = none ∧ captured.finished (tx n) (some 0) = some captured.d)
    ∧ Sent (tx 48) 48 captured ∧ Sent (tx 5) 5 captured ∧ Sent (tx 2) 2 captured ∧ captured.d.cip.trngFault = false
    ∧ ((0 : Byte).toNat < 4 ∧ ((captured.view (tx 5)).chan 0).used = true ∧ ((captured.view (tx 5)).chan 0).captureValid = true
      ∧ 1 ≤ (128 : Byte).toNat ∧ (128 : Byte).toNat ≤ 128 ∧ (32 : BitVec 16).toNat + (128 : Byte).toNat ≤ 160)
    ∧ ((7 : Byte).toNat < 8 ∧ (captured.view (tx 2)).img.usable = true) := by
  with_reducible (repeat' apply And.intro)
  all_goals first | exact sent_tx (by decide +kernel) | decide +kernel

/-- Two held-result slots, one with its result. -/
def holding : State := op (eu fun e => { e with
  held := [{ tag := 5, work := .snapDie 0, result := none }, { tag := 6, work := .snapDie 0, result := some (0, [1, 2]) }] })

theorem witness_HeldResultsAreFetched :
    (heldSlot holding.d 5 = some { tag := 5, work := .snapDie 0, result := none } ∧ Live holding)
    ∧ (heldSlot (holding.atReply (tx 1)) 5 = some { tag := 5, work := .snapDie 0, result := none }
      ∧ heldSlot (holding.atReply (tx 1)) 6 = some { tag := 6, work := .snapDie 0, result := some (0, [1, 2]) } ∧ Sent (tx 1) 1 holding
      ∧ (0x18 : Byte) = (6 : BitVec 6).setWidth 8 <<< 2 ∧ (0x14 : Byte) = (5 : BitVec 6).setWidth 8 <<< 2) := by
  with_reducible (repeat' apply And.intro)
  all_goals first | exact sent_tx (by decide +kernel) | decide +kernel

theorem witness_PortFaultsAreCounted : (op id).d.out = Outbox.none ∧ (op id).d.portLive = true ∧ (tx 252).crcOk = true
    ∧ (tx 252).plen.toNat ≤ 252 := by
  with_reducible (repeat' apply And.intro)
  all_goals first | exact sent_tx (by decide +kernel) | decide +kernel

theorem witness_LockSetsTheLock : (Sent (tx 0) 0 (op id) ∧ inOR ((op id).view (tx 0)) = true)
    ∧ (Sent (tx 0) 0 (op safe) ∧ inOR ((op safe).view (tx 0)) = false) := by
  with_reducible (repeat' apply And.intro)
  all_goals first | exact sent_tx (by decide +kernel) | decide +kernel

/-- A write whose commit falls in the cycle of a domain fault, the latest happening. -/
def together : Xact := { tx 6 with snapBack := 1, replyBack := 1, sameCycle := true }
def domainFell : State := { op (eu fun e => { e with queue := [eventOf 0x0E70 2], domainFaultSeen := true }) with past := [opDev] }

theorem witness_ScratchWordsAreWritten : inWOR ((op id).view (tx 6)) = true ∧ Sent (tx 6) 6 (op id) ∧ Sent (tx 10) 10 (op id)
    ∧ (∀ n ∈ [6, 10], ∀ i : Fin 4, Unraced (tx n) (op id) (0xF0 + i)) ∧ (op id).shared (tx 6) = none
    ∧ (1 : Word) ≠ (op id).d.eu.scratch.getD (3 : Fin 4) 0
    ∧ (inWOR (domainFell.view together) = true ∧ Sent together 6 domainFell ∧ domainFell.shared together = some opDev
      ∧ (∃ k ∈ domainFell.d.eu.queue.drop opDev.eu.queue.length, k.code = 0x0E70) ∧ (8 : Word).getLsbD 3 = true) := by
  with_reducible (repeat' apply And.intro)
  all_goals first | exact sent_tx (by decide +kernel) | decide +kernel

theorem witness_LedgerFieldsAreWritten :
    (Sent (tx 6) 6 (op id) ∧ inWOR ((op id).view (tx 6)) = true ∧ ((op id).view (tx 6)).eu.locked = false ∧ RestoreStays (op id))
    ∧ (∀ a ∈ [0x201, 0x301, 0x120, 0xC04, 0x802, 0x902, 0xA02, 0xB02], Unraced (tx 6) (op id) a)
    ∧ (((0x00000803 : Word).extractLsb' 8 4).toNat ∈ [1, 2, 4, 8] ∧ (0x00000803 : Word).extractLsb' 0 2 ≠ 0
      ∧ ((op id).d.port .fa).enabled = true ∧ (0x00000803 : Word).getLsbD 16 = false ∧ ((op id).d.port .fa).link ≠ .disabled)
    ∧ (((0x3200 : Word).extractLsb' 8 7).toNat = 50 ∧ ((0x6402 : Word).extractLsb' 8 7).toNat = 100 ∧ ((0x6402 : Word).extractLsb' 0 2).toNat ≤ 2)
    ∧ ((0x00010100 : Word).extractLsb' 16 16 ≠ 0 ∧ ((0x00010100 : Word).extractLsb' 8 6).toNat = 1 ∧ ((0xFFFF3201 : Word).extractLsb' 8 6).toNat = 50
      ∧ (0x00010100 : Word).extractLsb' 16 16 ≠ (op id).d.img.tricklePeriod)
    ∧ (((0x0100 : Word).extractLsb' 8 8).toNat ≠ 0 ∧ (0x0100 : Word).extractLsb' 8 8 ≠ ((op id).d.chan 3).retrainPeriod) := by
  with_reducible (repeat' apply And.intro)
  all_goals first | exact sent_tx (by decide +kernel) | decide +kernel

/-! ### Witnesses: mode, regions, copies -/

theorem witness_PathRequestsComplete :
    (Sent (tx 2) 2 (op id) ∧ Both (tx 2) (op id) (fun d => inO d = true) ∧ Steady (tx 2) (op id) ∧ (op id).d.ctl.hostPath = true)
    ∧ (Sent (tx 2) 2 (op closed) ∧ Both (tx 2) (op closed) (fun d => inO d = true) ∧ Steady (tx 2) (op closed)
      ∧ (op closed).d.ctl.hostPath = false ∧ Both (tx 2) (op closed) (fun d => openDenied d = false) ∧ (op closed).d.clk.src = false
      ∧ (op closed).d.clk.switching = false ∧ (op closed).d.ctl.retrainFailed = false
      ∧ ∀ m ∈ (op closed).d.mc, m.fullTrain = false ∧ m.onPoint1 = false)
    ∧ (let s := op (fun d => closed { d with clk := { d.clk with src := true, target := true } });
      Sent (tx 2) 2 s ∧ Both (tx 2) s (fun d => inO d = true) ∧ Steady (tx 2) s ∧ s.d.ctl.hostPath = false
      ∧ Both (tx 2) s (fun d => openDenied d = false) ∧ s.d.clk.src = true ∧ s.d.clk.switching = false)
    ∧ (let s := op (fun d => closed { d with clk := { d.clk with refGood := false } });
      Sent (tx 2) 2 s ∧ Both (tx 2) s (fun d => inO d = true) ∧ Steady (tx 2) s ∧ s.d.ctl.hostPath = false ∧ openDenied (s.view (tx 2)) = true) := by
  with_reducible (repeat' apply And.intro)
  all_goals first | exact sent_tx (by decide +kernel) | decide +kernel

theorem witness_SaveIsArmedAndDisarmed :
    (let s := op id;
      Sent (tx 0) 0 s ∧ Both (tx 0) s (fun d => inOR d = true) ∧ Steady (tx 0) s ∧ RestoreStays s ∧ s.d.ctl.saveArmed = false
      ∧ Both (tx 0) s (fun d => d.img.usable = true ∧ d.unable = false ∧ d.cip.bound = true))
    ∧ (let s := op (img fun i => { i with usable := false });
      Sent (tx 0) 0 s ∧ Both (tx 0) s (fun d => inOR d = true) ∧ s.d.ctl.saveArmed = false ∧ (s.view (tx 0)).img.usable = false)
    ∧ (let s := op (egy fun e => { e with capMf := 0 });
      Sent (tx 0) 0 s ∧ Both (tx 0) s (fun d => inOR d = true) ∧ s.d.ctl.saveArmed = false ∧ (s.view (tx 0)).img.usable = true
      ∧ (s.view (tx 0)).unable = true)
    ∧ (let s := op (cip fun c => { c with bound := false });
      Sent (tx 0) 0 s ∧ Both (tx 0) s (fun d => inOR d = true) ∧ s.d.ctl.saveArmed = false ∧ (s.view (tx 0)).img.usable = true
      ∧ (s.view (tx 0)).unable = false ∧ (s.view (tx 0)).cip.bound = false)
    ∧ (let s := op armed;
      Sent (tx 0) 0 s ∧ Both (tx 0) s (fun d => inOR d = true) ∧ Steady (tx 0) s ∧ RestoreStays s ∧ s.d.ctl.saveArmed = true
      ∧ (s.view (tx 0)).eu.locked = false) := by
  with_reducible (repeat' apply And.intro)
  all_goals first | exact sent_tx (by decide +kernel) | decide +kernel

theorem witness_SaveNowEntersSave :
    (Sent (tx 0) 0 (op armed) ∧ inOR ((op armed).view (tx 0)) = true
      ∧ Both (tx 0) (op armed) (fun d => inOR d = true ∧ d.ctl.saveArmed = true) ∧ Steady (tx 0) (op armed) ∧ (op armed).d.herdArmed = false)
    ∧ (let s := op (herdArmed ∘ armed);
      Sent (tx 0) 0 s ∧ inOR (s.view (tx 0)) = true ∧ Both (tx 0) s (fun d => inOR d = true ∧ d.ctl.saveArmed = true) ∧ Steady (tx 0) s
      ∧ s.d.herdArmed = true)
    ∧ (Sent (tx 0) 0 (op id) ∧ inOR ((op id).view (tx 0)) = true ∧ ((op id).view (tx 0)).ctl.saveArmed = false) := by
  with_reducible (repeat' apply And.intro)
  all_goals first | exact sent_tx (by decide +kernel) | decide +kernel

theorem witness_RestoreBeginsAndAdmits :
    (let s := op (closed ∘ armed ∘ image 1);
      Sent (tx 1) 1 s ∧ Both (tx 1) s (fun d => inO d = true ∧ restoreDenied d = none) ∧ Steady (tx 1) s ∧ ∃ p ∈ s.d.img.gmap, p.2.st = 1)
    ∧ (let s := op (inRestore ∘ image 1);
      Sent (tx 0) 0 s ∧ Both (tx 0) s (fun d => inR d = true ∧ d.rst.admitted = false ∧ d.clk.src = false) ∧ Steady (tx 0) s
      ∧ RestoreStays s) := by
  with_reducible (repeat' apply And.intro)
  all_goals first | exact sent_tx (by decide +kernel) | decide +kernel

theorem witness_SafeholdIsEnteredAndReleased :
    (Sent (tx 0) 0 (op id) ∧ Steady (tx 0) (op id) ∧ Both (tx 0) (op id) (fun d => inOR d = true) ∧ (op id).d.ctl.hostPath = true)
    ∧ (Sent (tx 0) 0 (op safe) ∧ Steady (tx 0) (op safe) ∧ Both (tx 0) (op safe) (fun d => inH d = true) ∧ (op safe).d.ctl.returnMode = .operate
      ∧ (op safe).d.img.commit = none)
    ∧ (let s := op (ctl (fun c => { c with returnMode := .restore }) ∘ safe ∘ inRestore);
      Sent (tx 0) 0 s ∧ Steady (tx 0) s ∧ Both (tx 0) s (fun d => inH d = true) ∧ s.d.ctl.returnMode = .restore ∧ s.d.rst.unrestored ≠ []
      ∧ s.d.img.commit = none) := by
  with_reducible (repeat' apply And.intro)
  all_goals first | exact sent_tx (by decide +kernel) | decide +kernel

/-- The attributes of one region with every right. -/
def attrs : RegAttr := { enable := true, rights := 0x3F, saveClass := 1, domain := 1, hint := 0, base := 0, limit := 0xFFFFFF }
/-- OPERATE with region 0 committed over everything. -/
def withRegion (d : Dev) : Dev := { d with reg := { d.reg with regions := d.reg.regions.modify 0 (fun r => { r with cur := attrs }) } }
/-- A region staged, without a key for its domain or with one. -/
def staged (d : Dev) : Dev := { d with reg := { d.reg with regions := d.reg.regions.modify 1 (fun r => { r with staged := some attrs }) } }
/-- Seven epochs live: a chunk of epoch 0 runs in epoch 7. -/
def sevenEpochs (d : Dev) : Dev :=
  ce (fun c => { c with st := .running, run := some { id := 0, bits := 0 }, jobEpoch := 0
                        job := some { reads := [], writes := [7], queued := 0, buffer := [], stopped := false, tainted := false } })
    { d with reg := { d.reg with epoch := 7 } }

theorem witness_RegionsAreStagedAndCommitted :
    (Sent (tx 10) 10 (op id) ∧ inOR ((op id).view (tx 10)) = true ∧ (0x3F : Byte).toNat < 64 ∧ (0x94 : Byte).getLsbD 0 = false
      ∧ (0x94 : Byte).extractLsb' 6 2 ≠ 3 ∧ (0x94 : Byte).extractLsb' 1 2 ≠ 3 ∧ (5 : BitVec 24).toNat ≤ (5 : BitVec 24).toNat
      ∧ (4 : BitVec 24).toNat < (5 : BitVec 24).toNat)
    ∧ (let s := op staged;
      Sent (tx 0) 0 s ∧ Both (tx 0) s (fun d => inOR d = true ∧ d.anyStaged = true)
      ∧ ((s.view (tx 0)).reg.epoch - (s.view (tx 0)).oldestLive).toNat < 7 ∧ s.d.keylessStaging = false)
    ∧ (let s := op (staged ∘ cip (fun c => { c with domKey := List.replicate 7 0 }));
      Sent (tx 0) 0 s ∧ Both (tx 0) s (fun d => inOR d = true ∧ d.anyStaged = true)
      ∧ ((s.view (tx 0)).reg.epoch - (s.view (tx 0)).oldestLive).toNat < 7 ∧ s.d.keylessStaging = true)
    ∧ (let s := op (sevenEpochs ∘ staged);
      Sent (tx 0) 0 s ∧ inOR (s.view (tx 0)) = true
      ∧ 7 ≤ ((s.view (tx 0)).reg.epoch - (s.view (tx 0)).oldestLive).toNat)
    ∧ (Sent (tx 0) 0 (op id) ∧ (((op id).view (tx 0)).reg.epoch - ((op id).view (tx 0)).oldestLive).toNat < 7
      ∧ ((op id).view (tx 0)).anyStaged = false) := by
  with_reducible (repeat' apply And.intro)
  all_goals first | exact sent_tx (by decide +kernel) | decide +kernel

/-- A fill of 128 bytes at device address 0. -/
def fill : BitVec 256 := BitVec.ofNat 256 (1 * 2 ^ 252 + 2 ^ 251 + 2 * 2 ^ 96 + 0x1122)
/-- An engine that runs the fill, its first chunk not yet begun; and that chunk with everything done. -/
def running : Dev → Dev := ce (fun c => { c with st := .running, run := some { id := 7, bits := fill } })
def chunkOver (stopped : Bool) : Dev → Dev := ce (fun c => { c with
  job := some { reads := [], writes := [], queued := 0, buffer := [], stopped := stopped, tainted := false } })
def queued : Dev → Dev := ce (fun c => { c with queue := [{ id := 8, bits := fill }] })

theorem witness_CopyEngineCommands :
    (Sent (tx 36) 36 (op id) ∧ Both (tx 36) (op id) (fun d => inO d = true ∧ submitDenied (0 : Fin 4) d = false)
      ∧ ({ id := 0, bits := fill } : Desc).valid ((op id).view (tx 36)).visible = true)
    ∧ (let s := op (running ∘ queued);
      Sent (tx 4) 4 s ∧ inOR (s.view (tx 4)) = true ∧ RestoreStays s
      ∧ Both (tx 4) s (fun d => inOR d = true ∧ cancelsRun (d.engine (0 : Fin 4)) 7 = true) ∧ (s.d.engine (0 : Fin 4)).st ≠ .cancelling
      ∧ (s.d.engine (0 : Fin 4)).job = none
      ∧ Both (tx 4) s (fun d => inOR d = true ∧ cancelsRun (d.engine (0 : Fin 4)) 8 = false ∧ cancelsQueued (d.engine (0 : Fin 4)) 8 = true))
    ∧ (let s := op (chunkOver false ∘ running);
      Sent (tx 4) 4 s ∧ Both (tx 4) s (fun d => inOR d = true ∧ cancelsRun (d.engine (0 : Fin 4)) 0xFFFF = true)
      ∧ (s.d.engine (0 : Fin 4)).st ≠ .cancelling ∧ (s.d.engine (0 : Fin 4)).job ≠ none)
    ∧ (cancelsRun (((op id).view (tx 4)).engine (0 : Fin 4)) 0xFFFF = false ∧ cancelsQueued (((op id).view (tx 4)).engine (0 : Fin 4)) 0xFFFF = false)
    ∧ (cancelsRun (((op id).view (tx 4)).engine (0 : Fin 4)) 9 = false ∧ cancelsQueued (((op id).view (tx 4)).engine (0 : Fin 4)) 9 = false)
    ∧ (let s := op (ce (fun c => { c with st := .stopped, cause := 1 }) ∘ running);
      Sent (tx 1) 1 s ∧ Both (tx 1) s (fun d => inO d = true ∧ resumable (d.engine (0 : Fin 4)) = true))
    ∧ (Sent (tx 1) 1 (op id) ∧ inO ((op id).view (tx 1)) = true ∧ resumable (((op id).view (tx 1)).engine (0 : Fin 4)) = false) := by
  with_reducible (repeat' apply And.intro)
  all_goals first | exact sent_tx (by decide +kernel) | decide +kernel

theorem witness_ChunksStart :
    (let s := op (running ∘ withRegion);
     let k : Desc := { id := 7, bits := fill };
      Live s ∧ s.d.ctl.mode = .operate ∧ (s.d.engine (0 : Fin 4)).run = some k ∧ (s.d.engine (0 : Fin 4)).job = none
      ∧ (s.d.engine (0 : Fin 4)).st = .running ∧ (s.d.engine (0 : Fin 4)).preempt = none ∧ (s.d.adm.holding && s.d.adm.mode = 1) = false
      ∧ (∀ m ∈ s.d.mc, m.fullTrain = false) ∧ (∀ m ∈ s.d.mc, m.frozen = false ∧ m.offline = false)
      ∧ (∀ b ∈ k.writeBursts (s.d.engine (0 : Fin 4)).runChunk.toNat, rightsIn s.d.attrs (b / 1024) (chunkRight (0 : Fin 4) true) = true)
      ∧ (∀ b ∈ k.readBursts (s.d.engine (0 : Fin 4)).runChunk.toNat, rightsIn s.d.attrs (b / 1024) (chunkRight (0 : Fin 4) false) = true
        ∧ s.d.poisoned (b / 1024) = false))
    ∧ (let s := op running;
     let k : Desc := { id := 7, bits := fill };
      Live s ∧ s.d.ctl.mode = .operate ∧ (s.d.engine (0 : Fin 4)).run = some k ∧ (s.d.engine (0 : Fin 4)).job = none
      ∧ (s.d.engine (0 : Fin 4)).st = .running ∧ (s.d.engine (0 : Fin 4)).preempt = none ∧ (s.d.adm.holding && s.d.adm.mode = 1) = false
      ∧ (∀ m ∈ s.d.mc, m.fullTrain = false) ∧ 0 ∈ k.writeBursts (s.d.engine (0 : Fin 4)).runChunk.toNat
      ∧ rightsIn s.d.attrs (0 / 1024) (chunkRight (0 : Fin 4) true) = false) := by
  with_reducible (repeat' apply And.intro)
  all_goals first | exact sent_tx (by decide +kernel) | decide +kernel

theorem witness_ChunksEnd :
    (let s := op (chunkOver false ∘ running);
     let k : Desc := { id := 7, bits := fill };
      Live s ∧ RestoreStays s ∧ (s.d.engine (0 : Fin 4)).run = some k
      ∧ (s.d.engine (0 : Fin 4)).job = some { reads := [], writes := [], queued := 0, buffer := [], stopped := false, tainted := false }
      ∧ (s.d.engine (0 : Fin 4)).st = .running ∧ (s.d.engine (0 : Fin 4)).preempt = none
      ∧ k.chunks ≤ (s.d.engine (0 : Fin 4)).runChunk.toNat + 1 ∧ k.notify = true ∧ (s.d.engine (0 : Fin 4)).queue = [])
    ∧ (let k : Desc := { id := 7, bits := fill + BitVec.ofNat 256 (2048 * 2 ^ 96) };
      (0 : BitVec 24).toNat + 1 < k.chunks)
    ∧ (let s := op (chunkOver true ∘ running);
      Live s ∧ (s.d.engine (0 : Fin 4)).run = some { id := 7, bits := fill }
      ∧ (s.d.engine (0 : Fin 4)).job = some { reads := [], writes := [], queued := 0, buffer := [], stopped := true, tainted := false }
      ∧ (s.d.engine (0 : Fin 4)).st = .running ∧ (s.d.engine (0 : Fin 4)).preempt = none) := by
  with_reducible (repeat' apply And.intro)
  all_goals first | exact sent_tx (by decide +kernel) | decide +kernel

/-! ### Witnesses: channels, image, keys, rails, energy, herd, Rooster -/

theorem witness_ChannelCommands :
    (let s := op (mc fun m => { m with frozen := true, freezeKind := 2 });
      ((s.view (tx 1)).chan (0 : Fin 4)).used = true ∧ Sent (tx 1) 1 s ∧ inOR (s.view (tx 1)) = true
      ∧ Both (tx 1) s (fun d => inOR d = true ∧ thawDenied (0 : Fin 4) d = false) ∧ RestoreStays s)
    ∧ thawDenied (1 : Fin 4) ((op id).view (tx 1)) = true
    ∧ (Sent (tx 2) 2 (op id) ∧ Both (tx 2) (op id) (fun d => inO d = true) ∧ ((op id).d.chan (1 : Fin 4)).fullTrain = false
      ∧ ((op id).d.chan (1 : Fin 4)).used = true ∧ ((op id).d.chan (1 : Fin 4)).offline = false ∧ ((op id).d.chan (1 : Fin 4)).pass = none
      ∧ ((op id).view (tx 2)).ctl.hostPath = true)
    ∧ (let s := op (mc fun m => { m with pass := some { lane := 0, inPause := false, cause := 0, low := false, lost := false } });
      Sent (tx 2) 2 s ∧ (s.d.chan (0 : Fin 4)).used = true ∧ (s.d.chan (0 : Fin 4)).offline = false ∧ (s.d.chan (0 : Fin 4)).pass ≠ none)
    ∧ (let s := op (mc fun m => { m with offline := true });
      Sent (tx 2) 2 s ∧ (s.d.chan (0 : Fin 4)).used = true ∧ (s.d.chan (0 : Fin 4)).offline = true)
    ∧ (Sent (tx 2) 2 (op closed) ∧ Both (tx 2) (op closed) (fun d => inO d = true ∧ d.ctl.hostPath = false)) := by
  with_reducible (repeat' apply And.intro)
  all_goals first | exact sent_tx (by decide +kernel) | decide +kernel

theorem witness_ImageCommands :
    (let s := op (closed ∘ image 1);
      Sent (tx 4) 4 s ∧ Both (tx 4) s (fun d => inO d = true ∧ discardDenied 9 d = none) ∧ (s.view (tx 4)).eu.locked = false)
    ∧ (Sent (tx 0) 0 (op id) ∧ Both (tx 0) (op id) (fun d => inO d = true ∧ flushDenied d = none))
    ∧ (let s := op (img fun i => { i with usable := false });
      Sent (tx 4) 4 s ∧ Sent (tx 0) 0 s ∧ inO (s.view (tx 4)) = true ∧ (s.view (tx 4)).eu.locked = false
      ∧ (s.view (tx 4)).img.usable = false) := by
  with_reducible (repeat' apply And.intro)
  all_goals first | exact sent_tx (by decide +kernel) | decide +kernel

/-- Not bound: an image of another device whose escrow key is 77. -/
def foreign : State := op (closed ∘ image 2 ∘ img (fun i => { i with escrowCheck := checkValue 77 }))

theorem witness_KeyCommands :
    (Sent (tx 36) 36 (op id) ∧ (77 : BitVec 256) ≠ 0 ∧ ((op id).view (tx 36)).eu.locked = false ∧ Both (tx 36) (op id) (fun d => inO d = true)
      ∧ (0 : Word) ≠ checkValue 77)
    ∧ ((1 : Fin 8) ≠ 0 ∧ Sent (tx 1) 1 (op id) ∧ Both (tx 1) (op id) (fun d => inO d = true ∧ rotateDenied (1 : Fin 8) d = none)
      ∧ Both (tx 1) (op id) (fun d => inO d = true ∧ rotateDenied 0 d = none))
    ∧ (Sent (tx 40) 40 foreign ∧ (foreign.view (tx 40)).eu.locked = false
      ∧ Both (tx 40) foreign (fun d => inO d = true ∧ bindDenied 9 77 (checkValue 77) d = none)) := by
  with_reducible (repeat' apply And.intro)
  all_goals first | exact sent_tx (by decide +kernel) | decide +kernel

/-- WAIT_RAILS with a sequence of one slot loaded: a dependency table, or a program whose first step is WAIT_TIME. -/
def loaded (header : Word) : Dev → Dev := waitRails ∘ rail (fun r => { r with
  header := header, st := .loaded, slots := Rail.reset.slots.set 0 (slotIn .off), program := r.program.set 0 0x30FFFFFF })

theorem witness_RailLoadsAreWritten :
    (let s := op waitRails;
      Both (tx 7) s (fun d => inW d = true) ∧ (s.view (tx 7)).eu.locked = false ∧ (tx 7).plen.toNat ≤ 252
      ∧ ([0x30000005] : List Word) ≠ [] ∧ 63 + ([0x30000005] : List Word).length ≤ 64 ∧ stepBad 0x30000005 = false ∧ Sent (tx 7) 7 s
      ∧ headerBad 0x02070064 = false ∧ slotEntryBad ((0x9801000F : Word) ++ (0x00008000 : Word)) = false ∧ Sent (tx 11) 11 s) := by
  with_reducible (repeat' apply And.intro)
  all_goals first | exact sent_tx (by decide +kernel) | decide +kernel

theorem witness_RailRunStartsAttempt :
    (let s := op (loaded 0x02020064);
      Sent (tx 1) 1 s ∧ Both (tx 1) s (fun d => inWHd d = true ∧ runDenied d = false) ∧ s.d.startupHeld = false ∧ s.d.rail.kind = 2
      ∧ (s.d.rail.program.getD 0 0).extractLsb' 28 4 = 3 ∧ (s.d.rail.program.getD 0 0).extractLsb' 0 24 ≠ 0)
    ∧ (let s := op (loaded 0x01020064);
      Sent (tx 1) 1 s ∧ Both (tx 1) s (fun d => inWHd d = true ∧ runDenied d = false) ∧ s.d.startupHeld = false ∧ s.d.rail.kind = 1
      ∧ (∀ i < 16, (s.d.slot i).rail = true → s.d.rail.needs i = 0 ∧ s.d.rail.delay i = 0) ∧ ∃ i < 16, (s.d.slot i).rail = true) := by
  with_reducible (repeat' apply And.intro)
  all_goals first | exact sent_tx (by decide +kernel) | decide +kernel

/-- R494, by hand: a window of 5 % of 20 V with a BLEED slot, 1 % without; 7 F take 7 × 0.8 W coulombs, in steps of 5 nC. -/
theorem test_capacitance :
    (let d := (op (egy fun e => { e with vFull := 20000 })).d
     d.capOf { step := 3, scheduled := false, sum := 0, window := if d.hasBleed then 1120000000 else 224000000, scans := 1, edgeV := 0, edgeI := 0 })
      = 7000 := by decide

/-- A capacitance test at a step, with its sum of ISET codes over so many scans. -/
def testAt (step scans : Nat) (sum : Int) : ETest :=
  { step := step, scheduled := true, sum := sum, window := 0, scans := scans, edgeV := 4000000, edgeI := 100 }
def testing (t : ETest) : Dev → Dev := egy fun e => { e with test := some t }

theorem witness_EnergyTestCommands :
    (Sent (tx 1) 1 (op id) ∧ Both (tx 1) (op id) (fun d => inO d = true ∧ d.unable = false ∧ d.egy.test = none)
      ∧ Both (tx 1) (op id) (fun d => inO d = true ∧ d.unable = false ∧ d.egy.calRunning = false))
    ∧ (let s := op (egy fun e => { e with capMf := 0 });
      Sent (tx 1) 1 s ∧ inO (s.view (tx 1)) = true ∧ (s.view (tx 1)).unable = true)
    ∧ (let s := op (testing (testAt 1 0 0));
      Sent (tx 1) 1 s ∧ inO (s.view (tx 1)) = true ∧ (s.view (tx 1)).unable = false ∧ (s.view (tx 1)).egy.test ≠ none) := by
  with_reducible (repeat' apply And.intro)
  all_goals first | exact sent_tx (by decide +kernel) | decide +kernel

theorem witness_HerdConfigJoinsAndLeaves :
    (Sent (tx 4) 4 (op waitRails) ∧ ((op waitRails).view (tx 4)).eu.locked = false ∧ (2 : Byte).toNat ≤ 2 ∧ (1 : BitVec 16) ≠ 0
      ∧ Both (tx 4) (op waitRails) (fun d => inW d = true) ∧ (op waitRails).d.herd.joined = false ∧ (op waitRails).d.herd.waitFor = none)
    ∧ (let s := op herdArmed;
      Sent (tx 4) 4 s ∧ (s.view (tx 4)).eu.locked = false ∧ Both (tx 4) s (fun d => inWO d = true) ∧ s.d.herd.joined = true)
    ∧ (Sent (tx 4) 4 (op id) ∧ inO ((op id).view (tx 4)) = true ∧ ((op id).view (tx 4)).herd.joined = false) := by
  with_reducible (repeat' apply And.intro)
  all_goals first | exact sent_tx (by decide +kernel) | decide +kernel

theorem witness_RoosterLoadsAndSends :
    (([1] : List Byte) ≠ [] ∧ ([1] : List Byte).length ≤ 248 ∧ (383 : BitVec 16).toNat + ([1] : List Byte).length ≤ 384 ∧ Sent (tx 3) 3 (op id)
      ∧ (tx 3).plen.toNat ≤ 252 ∧ ((op id).view (tx 3)).eu.locked = false ∧ Both (tx 3) (op id) (fun d => inWO d = true ∧ d.roo.hostRange = none))
    ∧ ((List.replicate 248 (7 : Byte)).length ≤ 248 ∧ Sent (tx 250) 250 (op id) ∧ (tx 250).plen.toNat ≤ 252)
    ∧ (1 ≤ (1 : BitVec 16).toNat ∧ (4095 : BitVec 16).toNat + (1 : BitVec 16).toNat ≤ 4096 ∧ Sent (tx 4) 4 (op id)
      ∧ Both (tx 4) (op id) (fun d => inOR d = true ∧ d.roo.hostRange = none))
    ∧ (let s := op (roo fun r => { r with hostPending := some (0, 1) });
      Sent (tx 4) 4 s ∧ inOR (s.view (tx 4)) = true ∧ (s.view (tx 4)).roo.hostRange ≠ none) := by
  with_reducible (repeat' apply And.intro)
  all_goals first | exact sent_tx (by decide +kernel) | decide +kernel

/-! ### What trainings find on lanes without an error, and on lanes without an eye -/

/-- A training of a point that finds no eye on its lanes. -/
def blockedPoint : PointSweep := { ca := [], lanes := List.replicate 5 { noLane with read := [blockedTo 256] } }
/-- The training words after it: all of point `p` replaced. -/
def wordsAfter (p : Nat) (w : Word) (l : List Word) : List Word := l.zipIdx.map (fun (q : Word × Nat) => if q.2 % 2 = p then w else q.1)

theorem quiet_lane (l : Nat) : laneOf noPoint l = noLane := by
  rcases l with _ | _ | _ | _ | _ | _ <;> rfl
theorem quiet_point (m : Mc) (p : Nat) : (m.trainPoint p noPoint).train = wordsAfter p (eyesWord (0, 256) (0, 256)) m.train := by
  simp [Mc.trainPoint, quiet_lane, noLane, eyeOf_nil, wordsAfter]
theorem blocked_point {m : Mc} (p : Nat) (hr : m.ranks = 0) (hm : m.train.length = 10) :
    (m.trainPoint p blockedPoint).train = wordsAfter p (eyesWord (0, 0) (0, 256)) m.train := by
  simp only [Mc.trainPoint, wordsAfter, hr]
  apply List.map_congr_left
  intro q hq
  have h := List.snd_lt_of_mem_zipIdx hq
  have : ∀ l < 5, laneOf blockedPoint l = { noLane with read := [blockedTo 256] } := by decide +kernel
  rw [this (q.2 / 2) (by omega)]
  simp [noLane, eyeOf_nil, eyeOf_blocked]
/-- The channel after each of the five stages, each with what is found to be good. -/
def found (m : Mc) : Mc := { (m.own 14 0).own 11 0 with drfm := 0, rfm := [], onPoint1 := true, stage := 3 }
def foundRank (m : Mc) : Mc := { found m with ranks := 0, stage := 4, point1Done := false }
def foundSave (m : Mc) : Mc := (foundRank m).savePointDone noPoint
def foundOperate (temp : Int) (m : Mc) : Mc := (foundSave m).operatePointDone noPoint temp
def foundSize (temp : Int) (m : Mc) : Mc := { foundOperate temp m with density := 0, probed := true, stage := 6 }

theorem found_ranks (temp : Int) (m : Mc) : (foundSize temp m).ranks = 0 := by
  simp only [foundSize, foundOperate, foundSave, operatePointDone_ranks, savePointDone_ranks]
  simp only [foundRank]
theorem found_density (temp : Int) (m : Mc) : (foundSize temp m).density = 0 := by
  simp only [foundSize]

theorem runs_through {m : Mc} (temp : Int) (h2 : m.stage = 2) (hw : m.train = List.replicate 10 0) : fullRun 6 temp
    [.init true 0 [], .ranks 1, .trainSave noPoint, .trainOperate noPoint, .probe 2 0 0 0 0 0] m = some (true, foundSize temp m) := by
  have q2 : mcStage m (.init true 0 []) temp = some (true, found m) := by simp [mcStage, h2, found]
  have q2r : mcStage (found m) (.ranks 1) temp = some (true, foundRank m) := by
    have h : ranksOf 1 = some 1 := by decide
    simp only [mcStage, found, foundRank, h]
    rfl
  have w : (foundRank m).train = List.replicate 10 0 := by simp only [foundRank, found, Mc.own, Mc.log, hw]
  have s3 : (found m).stage = 3 := rfl
  have s4 : (foundRank m).stage = 4 := rfl
  have t4 : (foundSave m).stage = 4 := by rw [foundSave, savePointDone_stage, s4]
  have q3 : mcStage (foundRank m) (.trainSave noPoint) temp = some (true, foundSave m) :=
    mcStage_save temp s4 (by simp only [foundRank]) (by rw [quiet_point, w]; decide +kernel)
  have q4 : mcStage (foundSave m) (.trainOperate noPoint) temp = some (true, foundOperate temp m) :=
    mcStage_operate temp t4 (by simp only [foundSave, Mc.savePointDone]) (by rw [quiet_point, foundSave, savePointDone_train, quiet_point, w]; decide +kernel)
  have s5 : (foundOperate temp m).stage = 5 := by simp only [foundOperate, Mc.operatePointDone]
  have q5 : mcStage (foundOperate temp m) (.probe 2 0 0 0 0 0) temp = some (true, foundSize temp m) := by
    simp only [mcStage, s5, densityOf, foundSize]
    rfl
  have s6 : (foundSize temp m).stage = 6 := by simp only [foundSize]
  simp only [fullRun, q2, q2r, q3, q4, q5, s3, s4, t4, s5, s6]
  rfl

/-- What each lane finds when it has no eye. -/
def blockedLanes : List LaneSweep := List.replicate 5 { noLane with read := [blockedTo 256] }

theorem quiet_retrain (m : Mc) (h : ∀ l, let e := m.edges.getD l { rdLow := 0, rdHigh := 0, wrLow := 0, wrHigh := 0 }
    e.rdHigh < 223 ∧ e.wrHigh < 223) : (m.retrain []).train = wordsAfter 0 (eyesWord (0, 256) (0, 256)) m.train := by
  simp only [Mc.retrain, wordsAfter]
  apply List.map_congr_left
  intro q _
  simp only [List.getD_nil, noLane, eyeNear_nil _ _ _ (h _).1, eyeNear_nil _ _ _ (h _).2]

theorem blocked_retrain {m : Mc} (hr : m.ranks = 0) (hm : m.train.length = 10)
    (h : ∀ l, (m.edges.getD l { rdLow := 0, rdHigh := 0, wrLow := 0, wrHigh := 0 }).wrHigh < 223) :
    (m.retrain blockedLanes).train = wordsAfter 0 (eyesWord (0, 0) (0, 256)) m.train := by
  simp only [Mc.retrain, wordsAfter, hr]
  apply List.map_congr_left
  intro q hq
  have hl := List.snd_lt_of_mem_zipIdx hq
  have : ∀ l < 5, blockedLanes.getD l noLane = { noLane with read := [blockedTo 256] } := by decide +kernel
  rw [this (q.2 / 2) (by omega)]
  simp only [noLane, eyeNear_nil _ _ _ (h _)]
  rw [show (0 : BitVec 2).toNat + 1 = 1 from rfl, eyeNear_blocked]

/-! ### Witnesses: power, clocks, STARTUP -/

theorem witness_PowerAndResets :
    (let s := op (ctl fun c => { c with mode := .unpowered });
      s.d.out = Outbox.none ∧ s.d.ctl.mode = .unpowered)
    ∧ (let s := op id;
      s.d.out = Outbox.none ∧ s.d.ctl.mode ≠ .unpowered ∧ RestoreStays s ∧ ¬(s.d.ctl.mode = .save ∧ s.d.rail.shut = none))
    ∧ (let s := op (fun d => startup .config { d with ident := Ident.reset });
      s.d.out = Outbox.none ∧ s.d.configuring = true ∧ s.d.ident.sampled = false)
    ∧ (let s := op (startup .config);
      s.d.out = Outbox.none ∧ s.d.configuring = true ∧ s.d.ident.sampled = true ∧ s.d.startupHeld = false)
    ∧ ((op inSave).d.out = Outbox.none ∧ (op inSave).d.ctl.mode = .save ∧ (op inSave).d.rail.shut = none) := by
  with_reducible (repeat' apply And.intro)
  all_goals decide +kernel

def clk (f : Clk → Clk) (d : Dev) : Dev := { d with clk := f d.clk }

theorem witness_ClockUnit :
    (let s := op (startup .waitRefclk);
      Live s ∧ RestoreStays s ∧ s.d.inWaitRefclk = true ∧ s.d.clk.switching = false)
    ∧ (let s := op (clk (fun c => { c with switching := true, target := false }) ∘ startup .waitRefclk);
      Live s ∧ RestoreStays s ∧ s.d.inWaitRefclk = true ∧ s.d.clk.switching = true ∧ s.d.clk.target = false ∧ s.d.clk.refGood = true
      ∧ s.d.clk.pllLocked = true)
    ∧ (Live (op id) ∧ (op id).d.clk.refGood = true ∧ (op id).d.ctl.mode ∈ [.operate, .restore, .safehold] ∧ (op id).d.clk.pllLocked = true
      ∧ (op id).d.ctl.hostPath = true)
    ∧ (let s := op (fun d => clk (fun c => { c with refGood := false, src := true }) (fa (fun f => { f with link := .disabled }) d));
      Live s ∧ s.d.clk.refGood = false ∧ s.d.ctl.mode ≠ .startup ∧ s.d.clk.src = true ∧ mayWake s.d (s.d.port .fa) ∧ s.d.ctl.mode ≠ .save)
    ∧ (let s := op (clk fun c => { c with switching := true, target := true });
      Live s ∧ RestoreStays s ∧ s.d.clk.switching = true ∧ s.d.clk.target = true ∧ s.d.ctl.entry = none
      ∧ s.d.ctl.mode ∈ [.operate, .restore, .safehold])
    ∧ (let s := op (clk (fun c => { c with src := true, switching := true, target := false })
        ∘ ctl (fun c => { c with hostPath := false, entry := some .resume, entrySwitching := true }));
      Live s ∧ RestoreStays s ∧ s.d.clk.switching = true ∧ s.d.clk.target = false ∧ s.d.ctl.entry ≠ none ∧ s.d.ctl.mode ≠ .startup) := by
  with_reducible (repeat' apply And.intro)
  all_goals decide +kernel

def down (m : BitVec 7) : Dev → Dev := ctl fun c => { c with domainsDown := m }
/-- STARTUP held by a domain. -/
def heldBy (m : BitVec 7) : Dev → Dev := ctl (fun c => { c with domainHold := true }) ∘ down m

theorem witness_DomainsAndPortResets :
    (let s := op (startup .config);
      s.d.out = Outbox.none ∧ RestoreStays s ∧ s.d.ctl.mode ≠ .unpowered ∧ s.d.ctl.domainsDown.getLsbD (6 : Fin 7) = false
      ∧ s.d.ctl.domainsDown.getLsbD (4 : Fin 7) = false ∧ s.d.alive = false)
    ∧ ((op id).d.out = Outbox.none ∧ RestoreStays (op id) ∧ (op id).d.alive = true ∧ (op id).d.ctl.domainsDown.getLsbD (4 : Fin 7) = false
      ∧ (op id).d.ctl.mode ∈ [.operate, .restore, .safehold] ∧ (op id).d.shutting = false)
    ∧ ((op waitRails).d.alive = true ∧ (0 : Fin 7) ≠ 4 ∧ (6 : Fin 7) ≠ 5 ∧ (op waitRails).d.ctl.mode = .startup)
    ∧ (let s := op (down 0x51);
      s.d.alive = true ∧ s.d.ctl.domainsDown.getLsbD (4 : Fin 7) = true ∧ s.d.startupHeld = false
      ∧ s.d.ctl.domainsDown.getLsbD (0 : Fin 7) = true ∧ s.d.ctl.mode ≠ .startup)
    ∧ (let s := op (waitRails ∘ heldBy 0x02);
      s.d.alive = true ∧ s.d.ctl.domainsDown.getLsbD (1 : Fin 7) = true ∧ s.d.startupHeld = true
      ∧ s.d.ctl.domainsDown &&& ~~~BitVec.ofNat 7 (2 ^ (1 : Fin 7).val) = 0)
    ∧ (let s := op (startup .config ∘ heldBy 0x40);
      s.d.alive = false ∧ s.d.startupHeld = true ∧ s.d.ctl.domainsDown = BitVec.ofNat 7 (2 ^ (6 : Fin 7).val))
    ∧ (Port.fa ≠ .fb ∧ ((op id).d.port .fa).link ≠ .disabled)
    ∧ (let s := op (fa fun f => { f with link := .disabled, fresetLow := true });
      mayWake s.d { s.d.port .fa with fresetLow := false } ∧ s.d.clk.refGood = true ∧ s.d.clk.pllLocked = true ∧ s.d.ctl.mode ≠ .save) := by
  with_reducible (repeat' apply And.intro)
  all_goals decide +kernel

/-- The DRAM step with channels 0 and 1 at a stage and the others done. -/
def dramAt (a b : Nat) (train : List Word) : State := op fun d => startup .dram { d with
  mc := [{ Mc.reset with used := true, stage := a, train := train }, { Mc.reset with used := true, stage := b, train := train }
         , { Mc.reset with stage := 7 }, { Mc.reset with stage := 7 }] }
def goodWords : List Word := List.replicate 10 0x40404040

theorem witness_DramStagesAreTaken_others :
    (let s := dramAt 1 1 [];
      Live s ∧ s.d.inDramStep = true ∧ (s.d.chan (0 : Fin 4)).stage = 1 ∧ (∃ k : Fin 4, k ≠ 0 ∧ (s.d.chan k).stage = 1))
    ∧ (let s := dramAt 2 2 [];
      Live s ∧ s.d.inDramStep = true ∧ (s.d.chan (0 : Fin 4)).stage = 2 ∧ (∀ m ∈ s.d.mc, m.stage ≠ 1))
    ∧ (let s := dramAt 3 2 [];
      Live s ∧ s.d.inDramStep = true ∧ (s.d.chan (0 : Fin 4)).stage = 3 ∧ (15 : BitVec 4).toNat = 2 ^ ((3 : Fin 4).val + 1) - 1
      ∧ (5 : BitVec 4).toNat ∉ [1, 3, 7, 15])
    ∧ (let s := dramAt 5 4 goodWords;
      Live s ∧ s.d.inDramStep = true ∧ (s.d.chan (0 : Fin 4)).stage = 5 ∧ densityOf 2 0 0 0 0 0 = some 0 ∧ densityOf 0 3 4 3 2 0 = some 2
      ∧ densityOf 0 1 0 0 0 5 = some 3 ∧ densityOf 0 0 0 0 0 0 = none)
    ∧ (let s := dramAt 6 6 goodWords;
      Live s ∧ s.d.inDramStep = true ∧ (s.d.chan (0 : Fin 4)).stage = 6 ∧ s.d.allPast 5 = true
      ∧ (s.d.chan (0 : Fin 4)).ranks = (s.d.chan (s.d.findReference.getD (0 : Fin 4))).ranks
      ∧ (s.d.chan (0 : Fin 4)).density = (s.d.chan (s.d.findReference.getD (0 : Fin 4))).density
      ∧ tableOk (s.d.chan (0 : Fin 4)) s.d.dcfg.opRate = true ∧ (∃ m ∈ s.d.mc.eraseIdx (0 : Fin 4), m.stage ≠ 7))
    ∧ (let s := dramAt 6 7 goodWords;
      s.d.allPast 5 = true ∧ (s.d.chan (0 : Fin 4)).stage = 6 ∧ ∀ m ∈ s.d.mc.eraseIdx (0 : Fin 4), m.stage = 7)
    ∧ (let s := on ((dramAt 6 6 goodWords).d.onChan 0 (fun m => { m with ranks := 1 }));
      Live s ∧ s.d.inDramStep = true ∧ (s.d.chan (1 : Fin 4)).stage = 6 ∧ s.d.allPast 5 = true
      ∧ (s.d.chan (1 : Fin 4)).ranks ≠ (s.d.chan (s.d.findReference.getD (1 : Fin 4))).ranks) := by
  with_reducible (repeat' apply And.intro)
  all_goals decide +kernel

/-- The DRAM step in the training of a point, before or after point 1. -/
def trainingAt (done : Bool) : State := on ((dramAt 4 4 (List.replicate 10 0)).d.onChan 0 (fun m => { m with point1Done := done }))

theorem witness_DramStagesAreTaken_training :
    (let s := trainingAt false;
      Live s ∧ s.d.inDramStep = true ∧ (s.d.chan (0 : Fin 4)).stage = 4 ∧ (s.d.chan (0 : Fin 4)).point1Done = false
      ∧ pointValid ((s.d.chan (0 : Fin 4)).trainPoint 1 noPoint).train 1 = true
      ∧ pointValid ((s.d.chan (0 : Fin 4)).trainPoint 1 blockedPoint).train 1 = false)
    ∧ (let s := trainingAt true;
      Live s ∧ s.d.inDramStep = true ∧ (s.d.chan (0 : Fin 4)).stage = 4 ∧ (s.d.chan (0 : Fin 4)).point1Done = true ∧ s.d.allPast 3 = true
      ∧ pointValid ((s.d.chan (0 : Fin 4)).trainPoint 0 noPoint).train 0 = true
      ∧ pointValid ((s.d.chan (0 : Fin 4)).trainPoint 0 blockedPoint).train 0 = false) := by
  refine ⟨⟨by decide +kernel, rfl, rfl, rfl, ?_, ?_⟩, by decide +kernel, rfl, rfl, rfl, by decide +kernel, ?_, ?_⟩
  all_goals first | rw [quiet_point] | rw [blocked_point _ rfl rfl]
  all_goals decide +kernel

/-- The IMAGE step at a stage. -/
def imageAt (stage : Nat) : Dev → Dev := startup .image ∘ img fun i => { i with stage := stage }
/-- A good record set. -/
def records : RecordSet :=
  { valid := true, serial := 1, blocks := [(0, 3)], bad := [], scrubHours := 168, ratedCycles := none, usedPages := 5, lifePages := 7, serviceDays := 3, peMax := 2, peAvg := 1, badBlocks := 0, scrubPasses := 4
    capMf := 20000, esr := 100, testAge := 1, costFixed := 1000, costPj := 20000, calibrated := true, hist := List.replicate 8 1, tMax := 50
    mirror := [] }
/-- A sector of page 5 that was not read as sealed. -/
def unsealed : SectorRead := { page := 5, sector := 0, info := List.replicate 32 0, data := [], tag := 0 }

theorem witness_ImageStagesAreTaken :
    (Live (op (imageAt 1)) ∧ (op (imageAt 1)).d.ctl.mode = .startup ∧ (op (imageAt 1)).d.discovering = true ∧ (op (imageAt 1)).d.img.stage = 1
      ∧ stage1Reason 0x11111111 (List.replicate 8 geom) = none ∧ stage1Reason 0 [] = some 3)
    ∧ ((op (imageAt 2)).d.discovering = true ∧ (op (imageAt 2)).d.img.stage = 2 ∧ (op (imageAt 2)).d.img.usable = true ∧ records.valid = true)
    ∧ ((op (imageAt 3)).d.discovering = true ∧ (op (imageAt 3)).d.img.stage = 3 ∧ (op (imageAt 3)).d.img.usable = true)
    ∧ ((op (imageAt 4)).d.discovering = true ∧ (op (imageAt 4)).d.img.stage = 4 ∧ (op (imageAt 4)).d.cip.trngFault = false
      ∧ (op (imageAt 4)).d.classOf ≠ 1)
    ∧ (let s := op (imageAt 5 ∘ img (fun i => { i with cls := 1, candidate := some { header with segmentDir := [5] } }));
      s.d.discovering = true ∧ s.d.img.stage = 5 ∧ s.d.img.cls = 1 ∧ s.d.mapReads s.d.imageKeys [] [] = true
      ∧ s.d.mapReads s.d.imageKeys [] [unsealed] = false)
    ∧ ((op (imageAt 6)).d.discovering = true ∧ (op (imageAt 6)).d.img.stage = 6)
    ∧ (Live (op (imageAt 7)) ∧ (op (imageAt 7)).d.discovering = true ∧ (op (imageAt 7)).d.img.stage = 7
      ∧ (op (imageAt 7)).d.ctl.safeholdCauses = 0)
    ∧ (let s := op (imageAt 7 ∘ ctl (fun c => { c with safeholdCauses := 2 }));
      Live s ∧ s.d.discovering = true ∧ s.d.img.stage = 7 ∧ s.d.ctl.safeholdCauses ≠ 0) := by
  with_reducible (repeat' apply And.intro)
  all_goals decide +kernel

theorem auth_apart (imk : BitVec 256) (h : Header) (a : BitVec 128) : headerAuth imk { h with auth := a } = headerAuth imk h := by
  have hb : headerBody { h with auth := a } = headerBody h := by
    delta headerBody keyBlock
    exact rfl
  rw [headerAuth, hb, headerAuth]

/-- The binding key of a device whose unique secret is 0. -/
def key0 : BitVec 256 := 85011723960836364526591605058866087550006027217528346948921489229983337072292
theorem key0_eq : bindingKey 0 = key0 := by decide +kernel

/-- A header of this device: its device wrap holds the image keys 5 and 6. -/
def ownHeader : Header :=
  { header with
    bindingId := bindingIdOf 0
    wrapDev := 234666158433466784056635877122758008688941507923941854606039499870345701921792853357819450593852005499129145871991542605023105230362478894433066464454386450754522873289848075 }
def ownSealed : Header := { ownHeader with auth := headerAuth 5 ownHeader }

theorem own_wrap : openWrap key0 ownSealed.wrapDev = some (5, 6) := by decide +kernel

theorem opens {key : BitVec 256} {wrap : BitVec 576} {h : Header} {k : BitVec 256 × BitVec 256} (hw : openWrap key wrap = some k)
    (ha : h.auth = headerAuth k.1 h) : openHeader key wrap h = some k := by
  rw [openHeader, hw]
  exact if_pos ha

theorem own_opens : openHeader (bindingKey 0) ownSealed.wrapDev ownSealed = some (5, 6) := by
  rw [key0_eq]
  exact opens own_wrap (auth_apart 5 ownHeader _).symm

theorem valid_class {d : Dev} {h : Header} (hu : d.img.usable = true) (hc : d.img.candidate = some h) (h2 : h.hkind ≠ 2)
    (hb : h.bindingId = bindingIdOf d.ident.dus) (hk : (openHeader d.dbk h.wrapDev h).isSome = true)
    (hg : h.granules.toNat ≤ d.dcfg.granules.toNat) : d.classOf = 1 := by
  have hn : (openHeader d.dbk h.wrapDev h).isNone = false := by
    rw [Option.isNone_eq_false_iff]
    exact hk
  simp [Dev.classOf, hu, hc, h2, hb, hn, Nat.not_lt.mpr hg]

theorem witness_ImageStagesAreTaken_keys :
    (let s := op (imageAt 4 ∘ img (fun i => { i with candidate := some ownSealed }));
      s.d.discovering = true ∧ s.d.img.stage = 4 ∧ s.d.img.candidate = some ownSealed ∧ s.d.classOf = 1
      ∧ openHeader s.d.dbk ownSealed.wrapDev ownSealed = some (5, 6)) := by
  have hb : ownSealed.bindingId = bindingIdOf 0 := by simp only [ownSealed, ownHeader]
  have hd : (op (imageAt 4 ∘ img (fun i => { i with candidate := some ownSealed }))).d.ident.dus = 0 := rfl
  refine ⟨by decide +kernel, rfl, rfl, valid_class (h := ownSealed) rfl rfl (by decide) (hb.trans (congrArg bindingIdOf hd.symm)) ?_ (by decide), own_opens⟩
  exact (congrArg Option.isSome own_opens).trans rfl

/-! ### Witnesses: the sequencer, SAVE, energy -/

/-- An attempt in RAILS under way, slot 0 in a state. -/
def attempt (st : RailState) (f : Rail → Rail) : State := op (startup .rails ∘ rail (fun r => f { r with
  st := .running, slots := Rail.reset.slots.set 0 (slotIn st) }))

theorem witness_SequencerInputsArePending :
    (Live (attempt .enabling fun r => { r with waiting := 4 })
      ∧ inputOf (attempt .enabling fun r => { r with waiting := 4 }).d .seqStepTimeout = some (.timer 0 16)
      ∧ inputOf (attempt .enabling id).d (.railUpTimeout 0) = some (.timer 3 0)
      ∧ inputOf (attempt .enabling fun r => { r with waiting := 3 }).d .seqWaitTimeExpire = some (.timer 1 16)
      ∧ inputOf (attempt .off fun r => { r with delaying := [15] }).d (.seqDelayExpire 15) = some (.timer 2 15)
      ∧ inputOf (attempt .off fun r => { r with st := .retryWait }).d .retryGapExpire = some (.timer 5 16)
      ∧ inputOf (attempt .up fun r => { r with shut := some { left := [0], timeouts := 0, after := .waitRails } }).d (.railOffTimeout 0)
        = some (.timer 4 0)
      ∧ (∀ j ∈ (attempt .enabling id).d.rail.pending, j.rank ≠ (SeqInput.timer 3 0).rank))
    ∧ (let s := attempt .enabling fun r => { r with pending := [.timer 3 0] };
      Live s ∧ inputOf s.d (.railUpTimeout 0) = some (.timer 3 0) ∧ (∃ j ∈ s.d.rail.pending, j.rank = (SeqInput.timer 3 0).rank)
      ∧ (∀ j ∈ s.d.rail.pending, j.left = false))
    ∧ (let s := attempt .enabling id;
      ((s.d.rail.slots.modify (0 : Fin 16) (fun k => if k.pgUsed then { k with pg := true } else k)).getD (0 : Fin 16) Slot.reset).good = true
      ∧ ∀ j ∈ s.d.rail.pending, j.rank ≠ 400 + ((0 : Fin 16) : Nat))
    ∧ (let s := attempt .disabling fun r => { r with slots := r.slots.modify 0 (fun k => { k with vs := 0x7F }) };
      ((s.d.rail.slots.modify (0 : Fin 16) (fun k => if k.vsUsed then k else { k with pg := false })).getD (0 : Fin 16) Slot.reset).rail = true
      ∧ ((s.d.rail.slots.modify (0 : Fin 16) (fun k => if k.vsUsed then k else { k with pg := false })).getD (0 : Fin 16) Slot.reset).isOff = true) := by
  with_reducible (repeat' apply And.intro)
  all_goals decide +kernel

theorem witness_SequencerActsAndFaults :
    (Live (op id) ∧ RestoreStays (op id) ∧ (op id).d.rail.pending = [] ∧ ((op id).d.slot (0 : Fin 16)).st = .up
      ∧ ((op id).d.slot (0 : Fin 16)).pgUsed = true ∧ ((op id).d.slot (0 : Fin 16)).vsUsed = true ∧ (op id).d.herdArmed = false
      ∧ (∀ j ∈ (op id).d.rail.pending, j.rank ≠ 100))
    ∧ (let s := attempt .enabling fun r => { r with pending := [.powerGood 0 false] };
      Live s ∧ s.d.startupHeld = false ∧ s.d.attempting = true ∧ s.d.rail.kind = 1 ∧ s.d.rail.pending = [.powerGood (0 : Fin 16) false]
      ∧ (s.d.slot (0 : Fin 16)).st = .enabling ∧ (s.d.slot (0 : Fin 16)).good = true
      ∧ (∀ i : Fin 16, i ≠ 0 → (s.d.slot i).rail = true → (s.d.slot i).st = .up ∨ (s.d.slot i).st = .excluded))
    ∧ (let s := op (armed ∘ rail (fun r => { r with pending := [.pfail true] }));
      Live s ∧ s.d.rail.pending = [.pfail true] ∧ s.d.ctl.mode ∈ [.operate, .restore, .safehold] ∧ s.d.shutting = false
      ∧ s.d.rail.waiting ≠ 16 ∧ s.d.ctl.saveArmed = true)
    ∧ (let s := op (rail (fun r => { r with pending := [.pfail false] }));
      s.d.rail.pending = [.pfail false] ∧ s.d.shutting = false ∧ s.d.ctl.saveArmed = false)
    ∧ (let s := op (herdArmed ∘ armed);
      Live s ∧ s.d.herdArmed = true ∧ s.d.ctl.saveArmed = true ∧ s.d.ctl.mode = .operate) := by
  with_reducible (repeat' apply And.intro)
  all_goals decide +kernel

theorem witness_SavePhasesFollow :
    (Live (op inSave) ∧ (op inSave).d.ctl.mode = .save ∧ (op inSave).d.saving = true ∧ (op inSave).d.sav.phase = 0
      ∧ (op inSave).d.drainedAll = true ∧ (op inSave).d.img.commit = none ∧ (op inSave).d.img.commitAsked = []
      ∧ (op inSave).d.clk.switching = false ∧ (op inSave).d.clk.src = false)
    ∧ (let s := op (clk (fun c => { c with src := true, target := true }) ∘ inSave);
      Live s ∧ s.d.saving = true ∧ s.d.drainedAll = true ∧ s.d.clk.switching = false ∧ s.d.clk.src = true ∧ (s.d.port .fa).link ≠ .disabled)
    ∧ (let s := op (clk (fun c => { c with switching := true, target := true }) ∘ inSave);
      Live s ∧ s.d.saving = true ∧ s.d.drainedAll = true ∧ s.d.clk.switching = true)
    ∧ (∀ target : Bool, let s := op (fun d => { inSave (clk (fun c => { c with src := !target, switching := true, target := target }) d) with
        sav := { Sav.reset with phase := 1 } });
      Live s ∧ s.d.ctl.mode = .save ∧ s.d.saving = true ∧ s.d.sav.phase = 1 ∧ s.d.ctl.entry = none ∧ s.d.clk.switching = true
      ∧ s.d.clk.target = target ∧ (s.d.port .fa).link ≠ .disabled)
    ∧ (∀ skip : Bool, let s := op (fun d => { inSave (clk (fun c => { c with src := true, target := true }) d) with
        sav := { Sav.reset with phase := 1, skip := skip } });
      Live s ∧ s.d.ctl.mode = .save ∧ s.d.saving = true ∧ s.d.sav.phase = 1 ∧ s.d.clk.src = true ∧ s.d.clk.switching = false
      ∧ s.d.sav.markerGen = 0 ∧ s.d.img.commit = none ∧ s.d.img.commitAsked = [] ∧ s.d.sav.skip = skip)
    ∧ (op (fun d => { inSave (clk (fun c => { c with src := true, target := true }) d) with
        sav := { Sav.reset with phase := 1, skip := true } })).d.canResume = true
    ∧ (let s := op (rail (fun r => { r with abandonWait := true }) ∘ inSave);
      Live s ∧ s.d.ctl.mode = .save ∧ s.d.rail.abandonWait = true ∧ s.d.ctl.resetLatched = false)
    ∧ (let s := op (rail (fun r => { r with abandonWait := true }) ∘ ctl (fun c => { c with resetLatched := true }) ∘ inSave);
      Live s ∧ s.d.ctl.mode = .save ∧ s.d.rail.abandonWait = true ∧ s.d.ctl.resetLatched = true) := by
  with_reducible (repeat' apply And.intro)
  all_goals decide +kernel

/-- A scan with VIN at a code. -/
def scan (vin : BitVec 12) : AdcScan :=
  { vs := List.replicate 16 0x400, vin := vin, vstore := 1600, ichg := 1900, die := 40, td := [some 20, none, some 30, some 40], pg := 0xFFFF }

theorem witness_ScansAndEnergyAreTaken :
    (Live (op id) ∧ RestoreStays (op id) ∧ (op id).d.herdArmed = false ∧ (op id).d.rail.vinMin ≠ 0 ∧ (op id).d.egy.vinScale ≠ 0
      ∧ (op id).d.rail.vinFired = false ∧ (op id).d.rail.vinBelow = 0
      ∧ (scan 1666).vin.toNat * (op id).d.egy.vinScale.toNat < (op id).d.rail.vinMin * 100000)
    ∧ (let s := op (rail (fun r => { r with vinBelow := 1 }));
      Live s ∧ s.d.rail.vinFired = false ∧ s.d.rail.vinBelow ≠ 0 ∧ (∀ j ∈ s.d.rail.pending, j.rank ≠ 100))
    ∧ (let s := op (rail (fun r => { r with vinFired := true }));
      Live s ∧ s.d.rail.vinMin ≠ 0 ∧ s.d.egy.vinScale ≠ 0 ∧ s.d.rail.vinFired = true
      ∧ s.d.rail.vinMin * 100000 * 103 ≤ (scan 1717).vin.toNat * s.d.egy.vinScale.toNat * 100
      ∧ (scan 1716).vin.toNat * s.d.egy.vinScale.toNat * 100 < s.d.rail.vinMin * 100000 * 103) := by
  with_reducible (repeat' apply And.intro)
  all_goals decide +kernel

/-- The charger at the end of a window of 4 scans with a sum of currents. -/
def window (sum : Int) (st : Charger) (retry : Bool) : State :=
  op (egy fun e => { e with charger := st, winScans := 4, winSum := sum, retrying := retry })

theorem witness_ChargerWindowsAndRetries :
    (let s := window 159 .charging false;
      Live s ∧ s.d.unconfigured = false ∧ s.d.chargerBlocked = false ∧ s.d.egy.chgEn = true ∧ s.d.egy.charger ≠ .fault
      ∧ (s.d.egy.winSum < 40 * ((max 1 s.d.egy.winScans : Nat) : Int) ∧ s.d.vOc * 100 < s.d.egy.vFull.toNat * 99000))
    ∧ (let s := window 159 .fault true;
      Live s ∧ s.d.chargerBlocked = false ∧ s.d.egy.chgEn = true ∧ s.d.egy.charger = .fault
      ∧ (s.d.egy.winSum < 40 * ((max 1 s.d.egy.winScans : Nat) : Int) ∧ s.d.vOc * 100 < s.d.egy.vFull.toNat * 99000))
    ∧ (let s := window 160 .fault true;
      Live s ∧ ¬(s.d.egy.winSum < 40 * ((max 1 s.d.egy.winScans : Nat) : Int) ∧ s.d.vOc * 100 < s.d.egy.vFull.toNat * 99000)
      ∧ s.d.egy.retrying = true)
    ∧ (let s := window 160 .charging false;
      Live s ∧ ¬(s.d.egy.winSum < 40 * ((max 1 s.d.egy.winScans : Nat) : Int) ∧ s.d.vOc * 100 < s.d.egy.vFull.toNat * 99000)
      ∧ s.d.egy.retrying = false)
    ∧ (let s := window 0 .fault false;
      Live s ∧ s.d.egy.charger = .fault ∧ s.d.egy.retrying = false) := by
  with_reducible (repeat' apply And.intro)
  all_goals decide +kernel

theorem witness_EnergyTestsRun :
    (let s := op (fun d => { d with tasks := d.tasks.modify 9 (fun t => { t with anchor := some 5 }) });
      Live s ∧ s.d.unconfigured = false ∧ s.d.ctl.mode = .operate ∧ s.d.egy.test = none ∧ s.d.egy.charger ≠ .fault ∧ s.d.chargerBlocked = false
      ∧ (s.d.task 9).anchor ≠ none)
    ∧ ((op (testing (testAt 1 0 0))).d.egy.test = some (testAt 1 0 0) ∧ (testAt 1 0 0).step = 1)
    ∧ ((testAt 2 4 160).step = 2 ∧ (testAt 2 4 160).scans ≠ 0 ∧ 40 * ((testAt 2 4 160).scans : Int) ≤ (testAt 2 4 160).sum)
    ∧ ((testAt 2 4 159).step = 2 ∧ (testAt 2 4 159).sum < 40 * ((testAt 2 4 159).scans : Int) ∧ (testAt 2 0 0).scans = 0)
    ∧ (let s := op (testing (testAt 3 4 160));
      Live s ∧ s.d.egy.test = some (testAt 3 4 160) ∧ (testAt 3 4 160).step = 3) := by
  with_reducible (repeat' apply And.intro)
  all_goals decide +kernel

/-! ### Witnesses: the fabric ports -/

/-- A port at a training state. -/
def link (st : LinkState) (f : Fab → Fab) : State := op (fa fun k => f { k with link := st })
def tb1 : BitVec 128 := tbMake 0x5C 0 7 8 false 0 0 none
/-- A TB2 that grants the 5 credits an exchange needs. -/
def tb2 (rates : BitVec 3) (resume : Bool) : BitVec 128 := tbMake 0x5D 0 rates 8 resume 2 5 none

/-- A request header of a type with a SEQ, a hint and an address in bursts. -/
def request (type seq hint addr mask : Nat) : BitVec 128 :=
  BitVec.ofNat 128 (type * 2 ^ 124 + seq * 2 ^ 112 + 1 * 2 ^ 109 + hint * 2 ^ 98 + addr * 2 ^ 64 + mask)

theorem witness_TrainingSteps :
    (tbSym tb1 0 = 0x5C ∧ tbGood tb1 = true ∧ tbSym tb1 1 = 0)
    ∧ (Live (link .detect id) ∧ ((link .detect id).d.port .fa).link = .detect ∧ ((link .poll id).d.port .fa).link = .poll
      ∧ ((link .config id).d.port .fa).link = .config ∧ ((link .retrain id).d.port .fa).link = .retrain)
    ∧ (((op id).d.port .fa).link = .active ∧ 7 < ((op id).d.port .fa).width.toNat)
    ∧ (let s := link .eq fun f => { f with presetStep := 9, bestPreset := 4, bestEye := 30 };
      (s.d.port .fa).link = .eq ∧ (s.d.port .fa).presetStep < 10 ∧ (s.d.port .fa).bestEye < 31)
    ∧ (let s := link .eq fun f => { f with presetStep := 10, bestPreset := 4, bestEye := 30 };
      (s.d.port .fa).link = .eq ∧ (s.d.port .fa).presetStep = 10 ∧ (s.d.port .fa).bestPreset ≠ 11 ∧ 30 ≤ (s.d.port .fa).bestEye)
    ∧ (let s := link .eq fun f => { f with presetStep := 10 };
      (s.d.port .fa).link = .eq ∧ (s.d.port .fa).presetStep = 10 ∧ (s.d.port .fa).bestPreset = 11) := by
  with_reducible (repeat' apply And.intro)
  all_goals decide +kernel

/-- The port after one more TB2 on every lane. -/
def tb2Taken (f : Fab) (b : BitVec 128) : Fab :=
  { f with
    tb2Good := if b = f.tb2Last then f.tb2Good + 1 else 1, tb2Last := b, tb2Sent := f.tb2Sent + 1, laneLock := 0xFF
    hostRates := tbRates b, hostWidth := tbWidth b, hostResume := tbResume b, hostRxSeq := tbNextRx b, hostCredits := tbCredits b
    txPreset := (tbPreset b).getD f.txPreset }

/-- One TB2 short of an agreed exchange. -/
def nearly (b : BitVec 128) (rate : BitVec 2) (f : Fab) : Fab := { f with tb2Good := 7, tb2Sent := 15, tb2Last := b, rate := rate }

theorem witness_TrainingAgrees :
    (tbSym (tb2 7 false) 0 = 0x5D ∧ tbGood (tb2 7 false) = true ∧ tbSym (tb2 3 true) 0 = 0x5D ∧ tbGood (tb2 3 true) = true)
    ∧ (let s := link .config id;
      Live s ∧ (s.d.port .fa).link = .config
      ∧ ¬(8 ≤ (tb2Taken (s.d.port .fa) (tb2 7 false)).tb2Good ∧ 16 ≤ (tb2Taken (s.d.port .fa) (tb2 7 false)).tb2Sent
        ∧ 5 ≤ (tbCredits (tb2 7 false)).toNat))
    ∧ (let s := link .config (nearly (tb2 7 false) 1);
      Live s ∧ (s.d.port .fa).link = .config ∧ 8 ≤ (tb2Taken (s.d.port .fa) (tb2 7 false)).tb2Good
      ∧ 16 ≤ (tb2Taken (s.d.port .fa) (tb2 7 false)).tb2Sent ∧ 5 ≤ (tbCredits (tb2 7 false)).toNat
      ∧ fabWidthNow (tb2Taken (s.d.port .fa) (tb2 7 false)) = 8 ∧ fabNextRate (tb2Taken (s.d.port .fa) (tb2 7 false)) = some 2)
    ∧ (let s := link .config (nearly (tb2 1 false) 1);
      Live s ∧ (s.d.port .fa).link = .config ∧ (s.d.port .fa).afterRetrain = false ∧ 8 ≤ (tb2Taken (s.d.port .fa) (tb2 1 false)).tb2Good
      ∧ 16 ≤ (tb2Taken (s.d.port .fa) (tb2 1 false)).tb2Sent ∧ 5 ≤ (tbCredits (tb2 1 false)).toNat
      ∧ fabWidthNow (tb2Taken (s.d.port .fa) (tb2 1 false)) = 8 ∧ fabNextRate (tb2Taken (s.d.port .fa) (tb2 1 false)) = none
      ∧ (∀ r ∈ (s.d.port .fa).inflight, r.code ≠ none))
    ∧ (let s := link .retrain (nearly (tb2 3 true) 3);
      Live s ∧ (s.d.port .fa).link = .retrain ∧ 8 ≤ (tb2Taken (s.d.port .fa) (tb2 3 true)).tb2Good
      ∧ 16 ≤ (tb2Taken (s.d.port .fa) (tb2 3 true)).tb2Sent ∧ 5 ≤ (tbCredits (tb2 3 true)).toNat
      ∧ (∀ i < (s.d.port .fa).width.toNat, (0xFF : BitVec 8).getLsbD i = true) ∧ (s.d.port .fa).holdsState = true
      ∧ tbResume (tb2 3 true) = true) := by
  with_reducible (repeat' apply And.intro)
  all_goals decide +kernel

theorem witness_RequestsAreReceived :
    (∀ t ∈ [1, 2, 3, 4], hdrType (request t 0 0 0 0) = BitVec.ofNat 4 t ∧ hdrSeq (request t 0 0 0 0) = ((op id).d.port .fa).rxSeq
      ∧ protocolKind ((op id).d.port .fa) (request t 0 0 0 0) = none ∧ (request t 0 0 0 0).extractLsb' 120 8 ≠ 0
      ∧ isRequest (request t 0 0 0 0) = true)
    ∧ (Live (op id) ∧ ((op id).d.port .fa).link = .active ∧ ((op id).d.port .fa).skipToPso = false ∧ ((op id).d.port .fa).ackOwed < 31
      ∧ ((op id).d.port .fa).nakSent = false)
    ∧ 31 ≤ ((link .active fun f => { f with ackOwed := 31 }).d.port .fa).ackOwed
    ∧ (hdrSeq (request 1 0xFFF 0 0 0) ≠ ((op id).d.port .fa).rxSeq
      ∧ (((op id).d.port .fa).rxSeq - hdrSeq (request 1 0x800 0 0 0)).toNat ≤ 2048
      ∧ 2048 < (((op id).d.port .fa).rxSeq - hdrSeq (request 1 0x7FF 0 0 0)).toNat)
    ∧ (let s := link .active fun f => { f with nakSent := true };
      Live s ∧ (s.d.port .fa).skipToPso = false ∧ (s.d.port .fa).nakSent = true)
    ∧ (hdrSeq (request 2 0 0 1 0) = ((op id).d.port .fa).rxSeq ∧ protocolKind ((op id).d.port .fa) (request 2 0 0 1 0) = some 2)
    ∧ (isLinkPacket (ackHeader 0xC 5) = true ∧ (0 : Word) ≠ ({ hdr := ackHeader 0xC 5, data := [] } : Packet).crc
      ∧ isLinkPacket (request 3 0 0 0 0) = false ∧ (0 : Word) ≠ ({ hdr := request 3 0 0 0 0, data := [] } : Packet).crc) := by
  with_reducible (repeat' apply And.intro)
  all_goals decide +kernel

theorem witness_AcknowledgementAndReplay :
    (let s := link .active fun f => { f with replay := [(0, ⟨5, []⟩), (1, ⟨6, []⟩), (2, ⟨7, []⟩)], txSeq := 3, ackOwed := 1, episodes := 2 };
      Live s ∧ (s.d.port .fa).link = .active ∧ (s.d.port .fa).skipToPso = false
      ∧ (s.d.port .fa).replay = [(0, ⟨5, []⟩)] ++ (1, ⟨6, []⟩) :: [(2, ⟨7, []⟩)] ∧ (∀ q ∈ [((0 : BitVec 12), (⟨5, []⟩ : Packet))], q.1 ≠ 1)
      ∧ (s.d.port .fa).replay ≠ [] ∧ (s.d.port .fa).episodes < 3 ∧ 0 < (s.d.port .fa).ackOwed)
    ∧ (let s := link .active fun f => { f with replay := [(0, ⟨5, []⟩)], episodes := 3 };
      (s.d.port .fa).replay ≠ [] ∧ 3 ≤ (s.d.port .fa).episodes) := by
  with_reducible (repeat' apply And.intro)
  all_goals decide +kernel

/-- A port with one request received. -/
def received (h : BitVec 128) (f : Dev → Dev) : State := op (fa (fun k => { k with rx := [reqOf h []], rxConsumed := 1 }) ∘ f)

theorem witness_RequestsAreAdmitted :
    (let s := received (request 1 0 0 0 0) closed;
      Live s ∧ RestoreStays s ∧ (s.d.port .fa).rx = [reqOf (request 1 0 0 0 0) []] ∧ (s.d.port .fa).inflight = [] ∧ s.d.ctl.hostPath = false)
    ∧ (let r := reqOf (request 1 0 0 (4032 * 2 ^ 14) 0) [];
      (op id).d.ctl.hostPath = true ∧ (op id).d.visible < r.base + r.bytes)
    ∧ (let r := reqOf (request 1 0 0 (4032 * 2 ^ 14 - 1) 0) [];
      (op id).d.ctl.hostPath = true ∧ r.base + r.bytes ≤ (op id).d.visible
      ∧ rightsIn (op id).d.attrs r.granule (portRight .fa (!r.isRead)) = false)
    ∧ (let s := received (request 1 0 0 0 0) withRegion;
      Live s ∧ s.d.ctl.mode = .operate ∧ s.d.judge .fa (reqOf (request 1 0 0 0 0) []) = .admitted)
    ∧ (let s := link .active fun f => { f with cq := [⟨0, []⟩] };
      (s.d.port .fa).cq = [⟨0, []⟩] ∧ (s.d.port .fa).inflight = [] ∧ (s.d.port .fa).resend = [] ∧ fabMaySend (s.d.port .fa) ⟨0, []⟩ = true)
    ∧ (let s := link .active fun f => { f with cq := [⟨0, []⟩], txConsumed := 512 };
      (s.d.port .fa).cq = [⟨0, []⟩] ∧ (s.d.port .fa).inflight = [] ∧ (s.d.port .fa).resend = [] ∧ fabMaySend (s.d.port .fa) ⟨0, []⟩ = false)
    ∧ (let s := link .active fun f => { f with resend := [(0, ⟨5, []⟩)] };
      (s.d.port .fa).link = .active ∧ (s.d.port .fa).resend = (0, ⟨5, []⟩) :: []) := by
  with_reducible (repeat' apply And.intro)
  all_goals decide +kernel

/-! ### Witnesses: the DRAM channels -/

/-- A request of port FA for burst 0, admitted, and its queue entry. -/
def admittedReq : FReq :=
  { id := 0, req := reqOf (request 1 0 0 0 0) [], left := 1, epoch := 0, domain := 0, hint := 0, code := none, data := [], drop := false
    poisoned := false, begun := false }
def entryOf (a : Access) : QEntry := { id := 0, owner := .fabric .fa 0, who := 1, burst := 0, access := a, domain := 0, keepOpen := false }
/-- Channel 0 with that request queued, a row open or none. -/
def queuedOn (a : Access) (rows : List OpenRow) (left : Nat) : State :=
  op (fa (fun f => { f with inflight := [{ admittedReq with left := left }] })
    ∘ mc (fun m => { m with queue := [entryOf a], openRows := rows, coinOwed := [(0, 0, 1)] }))
def slotInput : SlotInput := { blocked := [], henBlocked := [], errors := [], draw := 0xFFFF }
/-- The row of burst 0 in its bank. -/
def row (n : Nat) : OpenRow := { rank := 0, bg := 0, bank := 0, row := n, run := 0 }

/-- The premises of SlotsServeTheQueue that are common to its clauses. -/
abbrev slotReady (s : State) : Prop :=
  Live s ∧ memWf s.d.mem ∧ s.d.ctl.mode = .operate ∧ (s.d.chan (0 : Fin 4)).running = true ∧ StoreQuiet s.d ∧ s.d.rst.flight = []
    ∧ (∀ k ∈ s.d.ce, k.job = none) ∧ slotInput.blocked = [] ∧ slotInput.henBlocked = [] ∧ slotInput.errors = []

theorem witness_SlotsServeTheQueue_refresh :
    (let s := op (mc fun m => { m with owed := [0, 0, 0, 8], forced := [false, false, false, true], openRows := [{ row 0 with rank := 3 }] });
      slotReady s ∧ (s.d.chan (0 : Fin 4)).forced.getD (3 : Fin 4) false = true
      ∧ (∀ k < (3 : Fin 4), (s.d.chan (0 : Fin 4)).forced.getD k false = false) ∧ (∃ o ∈ (s.d.chan (0 : Fin 4)).openRows, o.rank = (3 : Fin 4).val))
    ∧ (let s := op (mc fun m => { m with owed := [8, 0, 0, 0], forced := [true, false, false, false] });
      slotReady s ∧ (s.d.chan (0 : Fin 4)).forced.getD (0 : Fin 4) false = true
      ∧ (∀ o ∈ (s.d.chan (0 : Fin 4)).openRows, o.rank ≠ (0 : Fin 4).val)) := by
  with_reducible (repeat' apply And.intro)
  all_goals decide +kernel

theorem none_forced (i : Nat) : chanUp.forced.getD i false = false := by
  rcases i with _ | _ | _ | _ | _ <;> rfl
theorem none_owed (i : Nat) : chanUp.owed.getD i 0 = 0 := by
  rcases i with _ | _ | _ | _ | _ <;> rfl

theorem witness_SlotsServeTheQueue_idle :
    (slotReady (op id) ∧ (∀ i, ((op id).d.chan (0 : Fin 4)).forced.getD i false = false) ∧ ((op id).d.chan (0 : Fin 4)).yokeHeld = []
      ∧ ((op id).d.chan (0 : Fin 4)).mr4Wait = none ∧ ((op id).d.chan (0 : Fin 4)).queue = []
      ∧ (∀ i, ((op id).d.chan (0 : Fin 4)).owed.getD i 0 = 0))
    ∧ (let s := op (mc fun m => { m with mr4Wait := some [(5, false, false)] });
      slotReady s ∧ (∀ i, (s.d.chan (0 : Fin 4)).forced.getD i false = false) ∧ (s.d.chan (0 : Fin 4)).mr4Wait = some [(5, false, false)]
      ∧ highestMr4 [(5, false, false)] = some 5) :=
  ⟨⟨by decide +kernel, none_forced, rfl, rfl, rfl, none_owed⟩, by decide +kernel, none_forced, rfl, rfl⟩

theorem witness_SlotsServeTheQueue_requests :
    (∀ left ∈ [1, 2], ∀ l ∈ [[row 0], [row 1], []], let s := queuedOn .read l left;
      slotReady s ∧ (s.d.chan (0 : Fin 4)).yokeHeld = [] ∧ (s.d.chan (0 : Fin 4)).mr4Wait = none ∧ (s.d.chan (0 : Fin 4)).queue = [entryOf .read]
      ∧ (entryOf .read).owner = .fabric .fa admittedReq.id ∧ (entryOf .read).who < 16
      ∧ (s.d.port .fa).inflight = [{ admittedReq with left := left }] ∧ admittedReq.code = none ∧ admittedReq.drop = false)
    ∧ (let s := queuedOn .read [row 0] 1;
      (s.d.chan (0 : Fin 4)).hit (s.d.locate ((entryOf .read).burst * 64)) = true)
    ∧ (let s := queuedOn (.write 1 [7]) [row 0] 1;
      slotReady s ∧ (s.d.chan (0 : Fin 4)).hit (s.d.locate ((entryOf (.write 1 [7])).burst * 64)) = true ∧ (1 : BitVec 64) ≠ 0
      ∧ s.d.tagOf (entryOf (.write 1 [7])).burst = none)
    ∧ (let s := queuedOn .read [row 1] 1;
      (s.d.chan (0 : Fin 4)).rowAt (s.d.locate ((entryOf .read).burst * 64)) = some (row 1)
      ∧ (row 1).row ≠ (s.d.locate ((entryOf .read).burst * 64)).row)
    ∧ (let s := queuedOn .read [] 1;
      let l := s.d.locate ((entryOf .read).burst * 64);
      (s.d.chan (0 : Fin 4)).rowAt l = none ∧ (l.rank, l.bg, l.bank) ∉ (s.d.chan (0 : Fin 4)).coinOwed
      ∧ (s.d.chan (0 : Fin 4)).raaNeed l.rank l.bg l.bank = false)
    ∧ (let s := on ((queuedOn .read [] 1).d.onChan 0 (fun m => { m with coinOwed := [], rfm := [2, 0, 0, 0], raa := [(0, 0, 0, 2)] }));
      let l := s.d.locate ((entryOf .read).burst * 64);
      slotReady s ∧ (s.d.chan (0 : Fin 4)).rowAt l = none ∧ (l.rank, l.bg, l.bank) ∉ (s.d.chan (0 : Fin 4)).coinOwed
      ∧ (s.d.chan (0 : Fin 4)).raaNeed l.rank l.bg l.bank = true)
    ∧ (let s := on ((queuedOn .read [] 1).d.onChan 0 (fun m => { m with coinOwed := [(0, 0, 0)] }));
      let l := s.d.locate ((entryOf .read).burst * 64);
      (s.d.chan (0 : Fin 4)).rowAt l = none ∧ (l.rank, l.bg, l.bank) ∈ (s.d.chan (0 : Fin 4)).coinOwed) := by
  with_reducible (repeat' apply And.intro)
  all_goals decide +kernel

theorem witness_ChannelsAreKept :
    (Live (op id) ∧ RestoreStays (op id) ∧ ((op id).d.chan (0 : Fin 4)).used = true ∧ ((op id).d.chan (0 : Fin 4)).offline = false
      ∧ ((op id).d.chan (0 : Fin 4)).selfRefresh = false ∧ ((op id).d.chan (0 : Fin 4)).retraining = false
      ∧ (∀ b ∈ ((op id).d.chan (0 : Fin 4)).forced, b = false) ∧ 3 ≤ ((op id).d.chan (0 : Fin 4)).stage ∧ 0 ≤ ((op id).d.chan (0 : Fin 4)).ranks.toNat
      ∧ ((op id).d.chan (0 : Fin 4)).owed.getD 0 0 + 1 ≤ 8 ∧ ((op id).d.chan (0 : Fin 4)).refresh2x = false
      ∧ ((op id).d.chan (0 : Fin 4)).overTemp = false ∧ (op id).d.ctl.mode ∈ [.operate, .restore, .safehold] ∧ (∀ k ∈ (op id).d.mc, k.frozen = false)
      ∧ ((op id).d.chan (0 : Fin 4)).stage = 7)
    ∧ (let s := op (mc fun m => { m with owed := [8, 0, 0, 0], refresh2x := true, mr4Clean := 1, overTemp := true });
      8 < (s.d.chan (0 : Fin 4)).owed.getD 0 0 + 1 ∧ (s.d.task (0 : Fin 4)).behind = false ∧ (s.d.chan (0 : Fin 4)).refresh2x = true
      ∧ 1 ≤ (s.d.chan (0 : Fin 4)).mr4Clean ∧ (s.d.chan (0 : Fin 4)).overTemp = true)
    ∧ (let s := op (mc fun m => { m with selfRefresh := true });
      2 ≤ (s.d.chan (0 : Fin 4)).stage ∧ (s.d.chan (0 : Fin 4)).selfRefresh = true)
    ∧ (let s := op (mc fun m => { m with refresh2x := true });
      (s.d.chan (0 : Fin 4)).refresh2x = true ∧ (s.d.chan (0 : Fin 4)).mr4Clean = 0)
    ∧ (let s := op (fun d => d.onChan 1 (fun m => { m with frozen := true, freezeKind := 1 }));
      Live s ∧ (∃ k ∈ s.d.mc, k.frozen = true) ∧ s.d.ctl.mode ≠ .safehold)
    ∧ (let s := op (mc fun m => { m with openRows := [row 5], captureToCopy := true, capture := [1] });
      row 5 ∈ (s.d.chan (0 : Fin 4)).openRows ∧ (s.d.chan (0 : Fin 4)).queue = [] ∧ (s.d.chan (0 : Fin 4)).captureToCopy = true
      ∧ s.d.img.deferred = false) := by
  with_reducible (repeat' apply And.intro)
  all_goals decide +kernel

/-- Channel 0 in a pass at a lane. -/
def passAt (lane : Nat) (inPause : Bool) : State :=
  op (mc fun m => { m with retrainEn := true, pass := some { lane := lane, inPause := inPause, cause := 2, low := false, lost := false } })
/-- A pause whose write edges stay where they are, and whose read edges passed at the delays these bits say. -/
def pauseOf (low high : BitVec 9) : PauseResult := { rdLow := low, rdHigh := high, wrLow := 0x1F0, wrHigh := 0x01F, saves := [] }
/-- A save read that no correction mends. -/
def badSave : SaveRead := { rank := 0, column := 0, errors := (List.range 9).map (fun k => (k, BitVec.ofNat 8 (3 * k + 1))) }
/-- Eyes 8 steps wide. -/
def narrow (m : Mc) : Mc := { m with edges := List.replicate 5 { rdLow := 100, rdHigh := 107, wrLow := 100, wrHigh := 107 } }

theorem witness_TrainingIsTaken_pass :
    (let s := op (mc fun m => { m with retrainEn := true });
      Live s ∧ RestoreStays s ∧ s.d.ctl.mode ∈ [.operate, .restore] ∧ (s.d.chan (0 : Fin 4)).used = true ∧ (s.d.chan (0 : Fin 4)).offline = false
      ∧ (s.d.chan (0 : Fin 4)).fullTrain = false ∧ (s.d.chan (0 : Fin 4)).retrainEn = true ∧ (s.d.chan (0 : Fin 4)).pass = none)
    ∧ (let s := passAt 0 false;
      (s.d.chan (0 : Fin 4)).running = true ∧ (s.d.chan (0 : Fin 4)).pass = some { lane := 0, inPause := false, cause := 2, low := false, lost := false }
      ∧ (s.d.chan (0 : Fin 4)).retrainEn = true ∧ (∀ n ∈ (s.d.chan (0 : Fin 4)).owed, n = 0))
    ∧ (let s := passAt 4 true;
      let m := s.d.chan (0 : Fin 4);
      m.pass = some { lane := 4, inPause := true, cause := 2, low := false, lost := false } ∧ (pauseOf 0x1F0 0x01F).saves = []
      ∧ lostEye (m.pauseEyes 4 (pauseOf 0x1F0 0x01F)).1 = false ∧ lostEye (m.pauseEyes 4 (pauseOf 0x1F0 0x01F)).2 = false
      ∧ lostEye (m.pauseEyes 4 (pauseOf 0 0)).1 = true ∧ m.frozen = false ∧ m.passAsked = false
      ∧ lostEye ((narrow m).pauseEyes 4 (pauseOf 0x1F0 0x01F)).1 = false
      ∧ widthOf ((narrow m).pauseEyes 4 (pauseOf 0x1F0 0x01F)).1 = some 8) := by
  with_reducible (repeat' apply And.intro)
  all_goals decide +kernel

theorem witness_TrainingIsTaken_save : [badSave].any ((passAt 4 true).d.saveBad (0 : Fin 4)) = true := by decide +kernel

/-- An entry to OPERATE for a MODE_REQUEST, retraining both channels. -/
def entering : State := op (ctl (fun c => { c with hostPath := false, entry := some (.modeRequest 5) })
  ∘ fun d => { d with mc := d.mc.map (fun m => { m with onPoint1 := true }) })

theorem edges_within (l : Nat) : let e := chanUp.edges.getD l { rdLow := 0, rdHigh := 0, wrLow := 0, wrHigh := 0 }
    e.rdHigh < 223 ∧ e.wrHigh < 223 := by
  rcases l with _ | _ | _ | _ | _ | _ <;> exact ⟨Nat.le_of_ble_eq_true rfl, Nat.le_of_ble_eq_true rfl⟩

theorem witness_TrainingIsTaken_entry :
    (Live entering ∧ RestoreStays entering ∧ entering.d.ctl.mode = .operate ∧ entering.d.ctl.entry = some (.modeRequest 5)
      ∧ entering.d.ctl.entrySwitching = false ∧ entering.d.clk.switching = false ∧ (∀ k ∈ entering.d.mc, k.fullTrain = false)
      ∧ entering.d.ctl.retrainFailed = false)
    ∧ (∀ n : Fin 4, (entering.d.chan n).used = true → (entering.d.chan n).offline = false →
      pointValid ((entering.d.chan n).retrain (([] : List (List LaneSweep)).getD n [])).train 0 = true)
    ∧ pointValid ((entering.d.chan (0 : Fin 4)).retrain ([blockedLanes].getD (0 : Fin 4) [])).train 0 = false := by
  refine ⟨by decide +kernel, ?_, ?_⟩
  · intro n hu _
    have h : n = 0 ∨ n = 1 := by revert hu; revert n; decide +kernel
    rcases h with rfl | rfl
    · rw [show ([] : List (List LaneSweep)).getD ((0 : Fin 4) : Nat) [] = [] from rfl, quiet_retrain (entering.d.chan (0 : Fin 4)) edges_within]
      decide +kernel
    · rw [show ([] : List (List LaneSweep)).getD ((1 : Fin 4) : Nat) [] = [] from rfl, quiet_retrain (entering.d.chan (1 : Fin 4)) edges_within]
      decide +kernel
  · rw [show [blockedLanes].getD ((0 : Fin 4) : Nat) [] = blockedLanes from rfl, blocked_retrain (m := entering.d.chan (0 : Fin 4)) rfl rfl (fun l => (edges_within l).2)]
    decide +kernel

theorem witness_TrainingIsTaken_full :
    (let s := op (closed ∘ mc (fun m => { m with fullTrain := true }));
      Live s ∧ RestoreStays s ∧ (s.d.chan (0 : Fin 4)).fullTrain = true ∧ (s.d.chan (0 : Fin 4)).offline = false ∧ (s.d.chan (0 : Fin 4)).pass = none
      ∧ s.d.chunkOn (0 : Fin 4) = false ∧ s.d.ctl.retrainFailed = false
      ∧ pointValid ((s.d.chan (0 : Fin 4)).trainPoint 1 noPoint).train 1 = true
      ∧ pointValid (((s.d.chan (0 : Fin 4)).trainPoint 1 noPoint).trainPoint 0 noPoint).train 0 = true
      ∧ pointValid ((s.d.chan (0 : Fin 4)).trainPoint 1 blockedPoint).train 1 = false) := by
  refine ⟨by decide +kernel, by decide +kernel, rfl, rfl, rfl, by decide +kernel, rfl, ?_, ?_, ?_⟩
  · rw [quiet_point]; decide +kernel
  · rw [quiet_point, quiet_point]; decide +kernel
  · rw [blocked_point _ rfl rfl]; decide +kernel

/-- Channel 1 offline and in full training. -/
def retraining : State := op (closed ∘ fun d => { d.onChan 1 (fun m => { m with
    fullTrain := true, offline := true, trained := false, train := List.replicate 10 0 }) with dcfg := { d.dcfg with reference := some 0 } })

theorem witness_TrainingIsTaken_offline :
    (Live retraining ∧ RestoreStays retraining ∧ (retraining.d.chan (1 : Fin 4)).fullTrain = true ∧ (retraining.d.chan (1 : Fin 4)).offline = true
      ∧ (∃ n : Fin 4, (retraining.d.chan n).used = true ∧ (retraining.d.chan n).offline = false) ∧ retraining.d.dcfg.reference ≠ none)
    ∧ (let m : Mc := { retraining.d.chan (1 : Fin 4) with stage := 2, point1Done := false, ranks := 0, density := 0 }
       (∃ k, fullRun 6 retraining.d.therm.tDie [.init true 0 [], .ranks 1, .trainSave noPoint, .trainOperate noPoint, .probe 2 0 0 0 0 0] m = some (true, k)
          ∧ k.ranks = retraining.d.dcfg.refRanks ∧ k.density = retraining.d.dcfg.refDensity ∧ tableOk k retraining.d.dcfg.opRate = true)
       ∧ ∃ k, fullRun 6 retraining.d.therm.tDie [.init false 0 []] m = some (false, k)) := by
  refine ⟨by decide +kernel, ⟨_, runs_through _ rfl rfl, found_ranks _ _, found_density _ _, ?_⟩, _, fullRun_fails rfl⟩
  rw [tableOk, found_ranks, found_density]
  decide

/-! ### Witnesses: the store, the keys, the herd, Rooster, the rest -/

/-- A store of one target whose group 0 holds a live slot among stale ones. -/
def collecting : State := op (img fun i => { i with
  geom := { geom with planes := 1, blockGroups := 1 }, targetMap := 1, gmap := [(3, entry 0 false)]
  slots := [0, 4, 8].map (fun a => slotAt a 3 []) })

theorem witness_StoreWorkStarts :
    (let s := op (img fun i => { i with allowDayMib := 100, ratedInUse := 1000, changed := true });
      Live s ∧ s.d.ctl.mode = .operate ∧ s.d.awaits = false ∧ s.d.img.trickleEn = true ∧ s.d.trickleBlocked = false ∧ s.d.lifeSpent = false
      ∧ s.d.img.usedMib < s.d.img.allowDayMib.toNat ∧ s.d.canWrite = true ∧ s.d.img.changed = true ∧ s.d.img.commit = none
      ∧ s.d.img.lastCommitMs + 60000 ≤ s.d.ctl.uptimeMs ∧ s.d.shutting = false)
    ∧ (let s := op (safe ∘ image 1);
      Live s ∧ s.d.ctl.mode = .safehold ∧ s.d.mayRecord = true ∧ s.d.recordsRunning = false ∧ s.d.ringLost true = false ∧ s.d.img.relocs = [] ∧ s.d.img.usable = true ∧ s.d.img.deferred = false
      ∧ s.d.img.scrub = none ∧ s.d.shutting = false ∧ s.d.scrubList = 0x1000 :: [] ∧ s.d.onLost 0x1000 = false)
    ∧ (let s := op (safe ∘ img (fun i => { i with usable := true }));
      s.d.ctl.mode = .safehold ∧ s.d.img.usable = true ∧ s.d.img.deferred = false ∧ s.d.img.scrub = none ∧ s.d.shutting = false ∧ s.d.scrubList = [])
    ∧ (op (img fun i => { i with throttled := true })).d.img.throttled = true
    ∧ (collecting.d.mayCollect = true ∧ collecting.d.img.gcVictim = none ∧ collecting.d.gcChoice = some 0) := by
  with_reducible (repeat' apply And.intro)
  all_goals decide +kernel

/-- A copy of granule 3 whose program is under way. -/
def copy3 : Copy :=
  { id := 50, granule := 3, slot := 0x20002000, copyGen := 6, taint := false, purpose := 0, job := none, took := true, data := [(1, 1)]
    fromSlot := 0, keyGen := 1 }

theorem witness_FlashReportsAreTaken :
    (let s := op (safe ∘ image 1 ∘ img (fun i => { i with copies := [copy3] }));
      Live s ∧ s.d.ctl.mode = .safehold ∧ s.d.img.copies = [copy3] ∧ copy3.job = none ∧ copy3.copyGen ≠ 0 ∧ copy3.purpose = 0
      ∧ s.d.sav.abandoned = false ∧ s.d.img.relocs = [] ∧ (groupOf s.d.img.geom copy3.slot) ∉ s.d.img.retired
      ∧ s.d.onLost (groupOf s.d.img.geom copy3.slot) = false)
    ∧ (let s := op (img fun i => { i with erases := [0x40000000], gcVictim := some 0x40000000 });
      0x40000000 ∈ s.d.img.erases ∧ s.d.img.gcVictim = some 0x40000000 ∧ (0x40000000 : Word) ∉ s.d.img.retired
      ∧ s.d.onLost 0x40000000 = false)
    ∧ (let s := op (safe ∘ image 1 ∘ img (fun i => { i with ops := [(40, .scrubRead 0x1000)], scrub := some { left := [], relocated := 2 } }));
      Live s ∧ s.d.ctl.mode = .safehold ∧ s.d.img.ops = [(40, .scrubRead 0x1000)] ∧ s.d.img.scrub = some { left := [], relocated := 2 }
      ∧ s.d.img.relocs = [] ∧ badSectors s.d.img.geom 0x1000 [] = [] ∧ needsMove s.d.img.geom [] = false)
    ∧ (let s := op (inRestore ∘ image 1 ∘ img (fun i => { i with ops := [(40, .restoreRead 3 0)] }));
      Live s ∧ s.d.ctl.mode = .restore ∧ s.d.img.ops = [(40, .restoreRead 3 0)] ∧ 3 ∈ s.d.rst.unrestored
      ∧ badSectors s.d.img.geom (s.d.entry 3).slot [] = [])
    ∧ ((op id).d.img.targetMap.getLsbD (4 * (7 : Fin 8) + (0 : Fin 4)) = true ∧ (op id).d.img.lost.getLsbD (4 * (7 : Fin 8) + (0 : Fin 4)) = false
      ∧ (op id).d.img.copies = [] ∧ (op id).d.img.ops = []) := by
  with_reducible (repeat' apply And.intro)
  all_goals decide +kernel

/-- A re-key queued for a target. -/
def rekeying (k : Nat) (g : Option Goat) (f : Dev → Dev) : State := op (f ∘ cip (fun c => { c with goatQueue := [k], goat := g }))
def walking : Goat := { target := 1, job := none, doneBursts := [], finishing := false }

theorem witness_GoatAndVerdicts :
    (let s := rekeying 1 none withRegion;
      Live s ∧ RestoreStays s ∧ (1 : Fin 8) ≠ 0 ∧ s.d.ctl.mode = .operate ∧ s.d.shutting = false ∧ s.d.cip.goatQueue = (1 : Fin 8).val :: []
      ∧ s.d.cip.goat = none ∧ s.d.cip.trngFault = false ∧ s.d.granuleBlocked 0 = false ∧ (domainIn s.d.attrs 0).toNat = (1 : Fin 8))
    ∧ (let s := rekeying 1 (some walking) withRegion;
      s.d.cip.goat = some walking ∧ walking.job = none ∧ s.d.granuleBlocked (s.d.cip.boundary.getD ((1 : Fin 8) - 1) 0).toNat = false
      ∧ (domainIn s.d.attrs (s.d.cip.boundary.getD ((1 : Fin 8) - 1) 0).toNat).toNat = (1 : Fin 8))
    ∧ (let s := rekeying 1 (some walking) id;
      (domainIn s.d.attrs (s.d.cip.boundary.getD ((1 : Fin 8) - 1) 0).toNat).toNat ≠ (1 : Fin 8)
      ∧ (s.d.cip.boundary.getD ((1 : Fin 8) - 1) 0 + 1).toNat < s.d.dcfg.granules.toNat)
    ∧ (let s := rekeying 0 none id;
      s.d.cip.goatQueue.head? = some 0 ∧ s.d.ctl.mode = .operate ∧ s.d.canWrite = true ∧ s.d.awaits = false ∧ s.d.shutting = false
      ∧ s.d.cip.imageBoundary.toNat < s.d.dcfg.granules.toNat ∧ s.d.goatReading = false
      ∧ s.d.oldKeyed s.d.cip.imageBoundary.toNat = false
      ∧ (∀ k ∈ s.d.img.copies, k.granule ≠ s.d.cip.imageBoundary.toNat))
    ∧ (∀ pass : Bool, let v : Verdict := { granule := 0xFFFFFFFF, sector := 15, pass := pass };
      let s := op (fun d => { inRestore d with rst := { Rst.reset with unrestored := [5], verdicts := [v] } });
      Live s ∧ RestoreStays s ∧ 0xFFFFFFFF < 2 ^ 32
      ∧ s.d.rst.verdicts.find? (fun v => v.granule = 0xFFFFFFFF && v.sector = (15 : Fin 16).val) = some v ∧ v.pass = pass)
    ∧ (op id).d.cip.trngFault = false
    ∧ (let s := op (cip (fun c => { c with binding := [(5, 77)] }) ∘ image 2);
      Live s ∧ s.d.cip.binding = (5, 77) :: [] ∧ s.d.img.candidate = some header ∧ s.d.img.state = 2)
    ∧ (op (cip (fun c => { c with binding := [(5, 77)] }) ∘ image 1)).d.img.state ≠ 2 := by
  with_reducible (repeat' apply And.intro)
  all_goals decide +kernel

/-- A header whose escrow wrap holds the image keys 5 and 6 under the key 77. -/
def wrapped : Header :=
  { header with
    wrapEsc := 142789204122790737903148476714208232745173057134726206742256704033724698594216873928697006317685887828574018344473731378847252915914764290843807348341500825787280171458865244
    segmentDir := [5] }

theorem witness_GoatAndVerdicts_wrap : openWrap 77 wrapped.wrapEsc = some (5, 6) := by decide +kernel
theorem witness_GoatAndVerdicts_noWrap : openWrap 77 header.wrapEsc = none := by decide +kernel

theorem witness_GoatAndVerdicts_auth :
    (let h : Header := { wrapped with auth := headerAuth 5 wrapped }; headerAuth 5 h = h.auth)
    ∧ (let h : Header := { wrapped with auth := headerAuth 5 wrapped + 1 }; headerAuth 5 h ≠ h.auth) := by
  refine ⟨auth_apart _ _ _, fun e => ?_⟩
  replace e : headerAuth 5 { wrapped with auth := headerAuth 5 wrapped + 1 } = headerAuth 5 wrapped + 1 := e
  rw [auth_apart] at e
  generalize headerAuth 5 wrapped = a at e
  exact absurd e (by bv_omega)

theorem witness_GoatAndVerdicts_map :
    (let s := op (cip (fun c => { c with binding := [(5, 77)] }) ∘ img (fun i => { i with candidate := some wrapped }));
     let taken := ({ s.d with cip := { s.d.cip with binding := [] } }).countWords [];
     let keys : Option ImageKeys := some { imk := 5, gen := wrapped.keyGen, imkOld := 6, oldGen := wrapped.oldKeyGen };
      Live s ∧ s.d.cip.binding = (5, 77) :: [] ∧ s.d.img.candidate = some wrapped ∧ taken.mapReads keys [] [] = true
      ∧ taken.mapReads keys [] [unsealed] = false) := by
  with_reducible (repeat' apply And.intro)
  all_goals decide +kernel

/-- A device joined to the herd. -/
def joined (f : Herd → Herd) (g : Dev → Dev) : State := op (herd (fun h => f { h with joined := true, line := true, addr := 31 }) ∘ g)

theorem witness_HerdLineStepsTheDevice :
    (let s := joined (fun h => { h with st := 15, waitFor := some 0 }) id;
      Live s ∧ RestoreStays s ∧ s.d.herd.joined = true ∧ s.d.herd.st ≠ 7 ∧ s.d.herd.counted = false ∧ s.d.herd.line = true
      ∧ s.d.herd.waitFor = some (s.d.herd.st + 1))
    ∧ ((joined (fun h => { h with st := 6 }) id).d.herd.st + 1 = 7 ∧ (joined (fun h => { h with st := 8 }) id).d.herd.st + 1 = 9)
    ∧ (joined (fun h => { h with grabDue := true }) id).d.herd.grabDue = true
    ∧ (let s := joined (fun h => { h with st := 7 }) id;
      s.d.herd.joined = true ∧ s.d.herd.st = 7 ∧ s.d.ctl.saveArmed = false)
    ∧ (let s := joined (fun h => { h with st := 7 }) armed;
      Live s ∧ s.d.herd.st = 7 ∧ s.d.ctl.saveArmed = true ∧ s.d.ctl.mode ∈ [.operate, .restore, .safehold])
    ∧ (let s := joined (fun h => { h with line := false, waitFor := some 3, policy := 0 }) waitRails;
      Live s ∧ s.d.herd.joined = true ∧ s.d.herd.line = false ∧ s.d.herd.stalled = false ∧ s.d.herd.waitFor = some 3 ∧ s.d.herd.policy = 0
      ∧ s.d.ctl.mode = .startup)
    ∧ (joined (fun h => { h with line := false, waitFor := some 3, policy := 1 }) waitRails).d.herd.policy = 1
    ∧ (joined (fun h => { h with line := false, waitFor := some 3, policy := 2 }) waitRails).d.herd.policy = 2
    ∧ (let s := joined (fun h => { h with line := false, stalled := true }) id;
      s.d.herd.joined = true ∧ s.d.herd.stalled = true)
    ∧ (let s := joined (fun h => { h with pulling := true }) id;
      s.d.herd.joined = true ∧ s.d.herd.pulling = true ∧ s.d.herd.waitFor = none) := by
  with_reducible (repeat' apply And.intro)
  all_goals decide +kernel

theorem witness_RoosterSendsAndReceives :
    (Live (op id) ∧ (op id).d.roo.beaconEn = true ∧ (op id).d.roo.tx = .free ∧ (op id).d.roo.statusPending = none)
    ∧ (op (roo fun r => { r with statusPending := some 2 })).d.roo.statusPending = some 2
    ∧ (let r := (op (roo fun r => { r with beaconPending := true })).d.roo;
      r.tx = .free ∧ r.statusPending = none ∧ r.beaconPending = true ∧ r.keyHeld = false)
    ∧ (let r := (op (roo fun r => { r with beaconPending := true, keyHeld := true, hostPending := some (3, 50) })).d.roo;
      r.tx = .free ∧ r.statusPending = none ∧ (r.beaconPending = false ∨ r.keyHeld = true) ∧ r.hostPending = some (3, 50))
    ∧ (let r := (op (roo fun r => { r with blinkPending := true })).d.roo;
      r.tx = .free ∧ r.statusPending = none ∧ (r.beaconPending = false ∨ r.keyHeld = true) ∧ r.hostPending = none ∧ r.blinkPending = true)
    ∧ ((op (roo fun r => { r with tx := .beacon })).d.roo.tx = .beacon ∧ (op (roo fun r => { r with tx := .host 1 2 })).d.roo.tx = .host 1 2
      ∧ (op (roo fun r => { r with tx := .statusPage })).d.roo.tx = .statusPage ∧ (op (roo fun r => { r with tx := .blink true })).d.roo.tx = .blink true)
    ∧ ((op id).d.roo.shortId + 1 ≠ (op id).d.roo.shortId)
    ∧ (let r := (op (roo fun r => { r with keyHeld := true, repeats := 17, lastKey := 3, alarm := true })).d.roo;
      r.keyHeld = true ∧ r.repeats = 17 ∧ r.lastKey = 3 ∧ r.alarm = true)
    ∧ (let r := (op (roo fun r => { r with keyHeld := true, repeats := 16, lastKey := 3, alarm := true })).d.roo;
      r.keyHeld = true ∧ (r.repeats ≠ 17 ∨ r.lastKey ≠ 3 ∨ r.alarm = false))
    ∧ (op (roo fun r => { r with statusAsked := some 3 })).d.roo.statusAsked = some 3
    ∧ (op (roo fun r => { r with blinking := true })).d.roo.blinking = true := by
  with_reducible (repeat' apply And.intro)
  all_goals decide +kernel

def therm (f : Therm → Therm) (d : Dev) : Dev := { d with therm := f d.therm }

theorem witness_ThermalTasksAndScan :
    (Live (op id) ∧ RestoreStays (op id) ∧ (op id).d.therm.active = false ∧ (op id).d.therm.overLimit = false)
    ∧ (let s := op (therm fun t => { t with scans := [151] });
      s.d.therm.scans ≠ [] ∧ 151 ≤ s.d.therm.scans.foldl (· + ·) 0 / (s.d.therm.scans.length : Int))
    ∧ (op (therm fun t => { t with active := true, causes := 1 })).d.therm.active = true
    ∧ (let s := op (mc fun m => { m with tempTrigEn := true, retrainEn := true, passTemp := 8 });
      (s.d.chan (0 : Fin 4)).tempTrigEn = true ∧ (s.d.chan (0 : Fin 4)).used = true ∧ (s.d.chan (0 : Fin 4)).offline = false
      ∧ (s.d.chan (0 : Fin 4)).fullTrain = false ∧ (s.d.chan (0 : Fin 4)).pass = none ∧ s.d.ctl.mode = .operate
      ∧ 8 ≤ (s.d.therm.tDie - (s.d.chan (0 : Fin 4)).passTemp).natAbs
      ∧ (s.d.chan 0).retrainEn = true ∧ (s.d.task 4).behind = false)
    ∧ ((op id).d.ctl.mode ≠ .unpowered ∧ (op id).d.ctl.domainsDown.getLsbD 6 = false) := by
  with_reducible (repeat' apply And.intro)
  all_goals decide +kernel

theorem witness_OnlyResetLeavesUnpowered : ∃ t, (let s := op (ctl fun c => { c with mode := .unpowered });
    s.d.out = Outbox.none ∧ s.d.ctl.mode = .unpowered ∧ exec .resetNRelease s = .next t) :=
  ⟨_, rfl, rfl, rfl⟩

end Sys2Proof.Tests
end

section
/-! PROOF. The Eulan port (chapter 4): what it does with bad and abandoned transactions, LOCK, EVENT_POP and the held results. -/
namespace Sys2Proof.Stmt
open Sys2Proof.Machine

/-! ### Commits that write the management plane alone -/

/-- A cycle that writes the management plane alone, and of it neither the queue, EVENT_LOST nor STATE_SEQ, ends as it is. -/
theorem endCycle_plane {d : Dev} {e : Eu} (ho : d.out = Outbox.none) (hq : e.queue = d.eu.queue) (hl : e.lost = d.eu.lost)
    (hs : e.stateSeq = d.eu.stateSeq) : endCycle d { d with eu := e } = { d with eu := e } :=
  endCycle_quiet ho rfl rfl hq hl hs

/-- The same of a transaction, whether or not its commit shares the cycle of a happening. -/
theorem close_plane {s : State} {x : Xact} {e : Eu} (ho : s.d.out = Outbox.none) (hq : e.queue = s.d.eu.queue)
    (hl : e.lost = s.d.eu.lost) (hs : e.stateSeq = s.d.eu.stateSeq) : s.close x s.d { s.d with eu := e } = s.done { s.d with eu := e } :=
  congrArg s.done (endCommit_quiet ho rfl rfl hq hl hs)

/-- A device that differs in the management plane, the counter of free values and what its cycle is to queue has every other unit. -/
theorem exact_but_plane {d : Dev} {e : Eu} {f : Nat} {o : Outbox} {p : Part} (hp : p ∉ [Part.plane]) (ho : o.mem = d.out.mem) :
    p.exact d { d with eu := e, free := f, out := o } := by
  cases p
  case plane => exact absurd (List.mem_singleton_self _) hp
  case ports => exact ⟨rfl, rfl⟩
  case dram => exact ho
  all_goals rfl

/-! ### What `Sent` gives -/

theorem Sent.quiet {x : Xact} {n : Nat} {s : State} (h : Sent x n s) : s.d.out = Outbox.none := by
  obtain ⟨hout, -⟩ := h
  exact hout

theorem Sent.portLive {x : Xact} {n : Nat} {s : State} (h : Sent x n s) : s.d.portLive = true := by
  obtain ⟨-, hport, -⟩ := h
  exact hport

theorem Sent.viewAlive {x : Xact} {n : Nat} {s : State} (h : Sent x n s) : (s.view x).alive = true := by
  obtain ⟨-, -, halive, -⟩ := h
  exact halive

/-! ### Refusals (Table 4.9) -/

/-- A refusal that counts no CRC error and returns no STATE_SEQ has its reply as its one effect. -/
theorem refuse_answered {s : State} {x : Xact} {op st : Byte} (ho : s.d.out = Outbox.none) (hcrc : st ≠ stBadCrc)
    (hstate : st ≠ stDeniedState) : refuse s x op st false (s.view x) = answered x s st [] := by
  simp only [refuse, errorPayload, if_neg hcrc, if_neg hstate, Bool.false_eq_true, if_false]
  exact close_plane ho rfl rfl rfl

/-- The same of a transaction that a check fails. -/
theorem transact_answered {s : State} {x : Xact} {c : Cmd} {st : Byte} (ho : s.d.out = Outbox.none) (hp : s.d.portLive = true)
    (hc : c.check x (s.view x) = some st) (hcrc : st ≠ stBadCrc) (hstate : st ≠ stDeniedState) :
    transact s x c = answered x s st [] := by
  have hstale : c.staleAtReply x (s.view x) = false := by simp [Cmd.staleAtReply, hc, hstate]
  rw [transact_refused hp hc, hstale, refuse_answered ho hcrc hstate]

/-- A request of the right form in a mode that its command does not accept fails check 5. -/
theorem sent_check_deniedMode {x : Xact} {n : Nat} {s : State} {c : Cmd} (h : Sent x n s) (hn : n ≤ 248) (hlen : c.len n = true)
    (hmodes : c.modes (s.view x) = false) : c.check x (s.view x) = some stDeniedMode := by
  obtain ⟨-, -, -, hcrc, -, hplen, -⟩ := h
  have hlong : ¬ 252 < x.plen.toNat := by rw [hplen]; split <;> omega
  have hshort : ¬ (x.seq.isSome = true ∧ x.plen.toNat < 4) := by
    rintro ⟨hs, h4⟩
    rw [hplen, if_pos hs] at h4
    omega
  have hown : (if x.seq.isSome then x.plen.toNat - 4 else x.plen.toNat) = n := by
    rw [hplen]
    split <;> simp
  simp only [Cmd.check, if_neg hlong, hcrc, Bool.and_eq_true, decide_eq_true_eq, if_neg hshort, hown, hlen, hmodes, Bool.not_true,
    Bool.not_false, Bool.false_eq_true, if_false, if_true]

/-! ### Bad sync bytes, abandoned transactions, unassigned opcodes (R101, R112, Table 4.9) -/

theorem exec_badSync {s : State} (ho : s.d.out = Outbox.none) (hp : s.d.portLive = true) :
    exec .badSync s = .next (s.done { s.d with eu := { s.d.eu with reply := none, syncErrors := satInc s.d.eu.syncErrors } }) := by
  show execBadSync s = _
  rw [execBadSync, if_pos hp]
  exact congrArg (fun d => Host.Outcome.next (s.done d)) (endCycle_plane ho rfl rfl rfl)

theorem exec_transactionAbandon {s : State} (badCrc : Bool) (ho : s.d.out = Outbox.none) (hp : s.d.portLive = true) :
    exec (.transactionAbandon badCrc) s = .next (s.done { s.d with eu := { s.d.eu with
      reply := none, abandoned := satInc s.d.eu.abandoned
      crcErrors := if badCrc then satInc s.d.eu.crcErrors else s.d.eu.crcErrors } }) := by
  show execTransactionAbandon badCrc s = _
  rw [execTransactionAbandon, if_pos hp]
  exact congrArg (fun d => Host.Outcome.next (s.done d)) (endCycle_plane ho rfl rfl rfl)

theorem exec_badOpcode {s : State} {x : Xact} (op : Byte) (ho : s.d.out = Outbox.none) (hp : s.d.portLive = true)
    (hcrc : x.crcOk = true) (hplen : x.plen.toNat ≤ 252) : exec (.badOpcode x op) s = .next (answered x s stBadOpcode []) := by
  show execBadOpcode x op s = _
  rw [execBadOpcode, if_pos hp, if_neg (by omega), hcrc, Bool.not_true, if_neg Bool.false_ne_true,
    refuse_answered ho (by decide) (by decide)]

/-- Settles O14: each of the three ends a cycle that writes the management plane alone. -/
theorem portFaultsAreCounted : Obligations.PortFaultsAreCounted := fun _ ho hp =>
  ⟨exec_badSync ho hp, fun b => exec_transactionAbandon b ho hp, fun _ op hcrc hplen => exec_badOpcode op ho hp hcrc hplen⟩

/-! ### LOCK (R133) -/

theorem exec_lock {s : State} {x : Xact} (h : Sent x 0 s) (hm : inOR (s.view x) = true) :
    exec (.lock x) s = .next (s.done { s.d with eu := { s.d.eu with reply := replyOf x s stOk [], locked := true } }) := by
  show execLock x s = _
  rw [execLock, sent_runs h (by decide) rfl hm rfl rfl (by simp [Cmd.plain]) rfl (by simp [Cmd.plain]) rfl]
  exact congrArg _ (close_plane h.quiet rfl rfl rfl)

theorem exec_lock_deniedMode {s : State} {x : Xact} (h : Sent x 0 s) (hm : inOR (s.view x) = false) :
    exec (.lock x) s = .next (answered x s stDeniedMode []) := by
  show execLock x s = _
  rw [execLock, transact_answered h.quiet h.portLive (sent_check_deniedMode h (by decide) rfl hm) (by decide) (by decide)]

/-- Settles O15: in OPERATE and RESTORE no check fails, in any other mode check 5 does. -/
theorem lockSetsTheLock : Obligations.LockSetsTheLock := fun _ _ h => ⟨exec_lock h, exec_lock_deniedMode h⟩

/-! ### Held results (R107, R108) -/

/-- The tag byte of FETCH gives its tag back, and its low two bits are 0 (R147). -/
theorem fetchByte_tag (tag : BitVec 6) : (tag.setWidth 8 <<< 2).extractLsb' 2 6 = tag := by
  ext i hi
  have hin : 2 + i < 8 := by omega
  have hpast : ¬ 2 + i < 2 := by omega
  have hbit : 2 + i - 2 = i := by omega
  have hbyte : i < 8 := by omega
  simp only [BitVec.getElem_extractLsb', BitVec.getLsbD_shiftLeft, BitVec.getLsbD_setWidth, hin, hpast, hbit, hbyte, decide_true,
    decide_false, Bool.not_false, Bool.true_and, BitVec.getLsbD_eq_getElem hi]

theorem fetchByte_low (tag : BitVec 6) : (tag.setWidth 8 <<< 2).extractLsb' 0 2 = 0 := by
  ext i hi
  have hlow : 0 + i < 2 := by omega
  simp only [BitVec.getElem_extractLsb', BitVec.getLsbD_shiftLeft, hlow, decide_true, Bool.not_true, Bool.and_false, Bool.false_and,
    BitVec.ofNat_eq_ofNat, BitVec.getElem_zero]

theorem holds_of_heldSlot {d : Dev} {tag : BitVec 6} {h : Held} (hs : heldSlot d tag = some h) : holds d tag = true :=
  List.any_eq_true.mpr ⟨h, List.mem_of_find?_eq_some hs, by simpa using List.find?_some hs⟩

/-- FETCH of a tag in use is accepted: it replies the slot's result, or BUSY, and a slot whose result it delivers is freed. -/
theorem exec_fetch {s : State} {x : Xact} {b : Byte} {tag : BitVec 6} {h : Held} (hx : Sent x 1 s)
    (hs : heldSlot (s.atReply x) tag = some h) (hb : b = tag.setWidth 8 <<< 2) :
    exec (.fetch x b) s = .next (match h.result with
      | some r => s.done { s.d with eu := { s.d.eu with
          reply := replyOf x s r.1 r.2, held := s.d.eu.held.filter (fun k => k.tag ≠ tag) } }
      | none => answered x s stBusy []) := by
  have htag : b.extractLsb' 2 6 = tag := hb ▸ fetchByte_tag tag
  have hlow : b.extractLsb' 0 2 = 0 := hb ▸ fetchByte_low tag
  show execFetch x b s = _
  rw [execFetch, sent_runs hx (by decide) rfl hx.viewAlive rfl (by simp [htag, hlow, holds_of_heldSlot hs]) (by simp) rfl (by simp) rfl]
  simp only [htag, hs, Option.bind_some]
  cases h.result with
  | some r => exact congrArg _ (close_plane hx.quiet rfl rfl rfl)
  | none => exact congrArg _ (close_plane hx.quiet rfl rfl rfl)

/-- The device after the work of a held command has finished, before its event (R107). -/
def storeResult (d : Dev) (tag : BitVec 6) (r : Byte × List Word) : Dev :=
  { d.used with eu := { d.eu with held := d.eu.held.map (fun k => if k.tag = tag then { k with result := some r } else k) } }

theorem storeResult_only (d : Dev) (tag : BitVec 6) (r : Byte × List Word) : Only [.plane] d (storeResult d tag r) :=
  .ofUpdate rfl rfl (fun _ hp => exact_but_plane hp rfl)

/-- The parameter of RESULT_READY: the tag, then the status. -/
theorem packBytes_tag_status (tag : BitVec 6) (st : Byte) : packBytes [(1, tag.toNat), (1, st.toNat)] = tag.toNat * 256 + st.toNat := by
  have htag : tag.toNat % 256 = tag.toNat := Nat.mod_eq_of_lt (by have := tag.isLt; omega)
  have hst : st.toNat % 256 = st.toNat := Nat.mod_eq_of_lt st.isLt
  show (0 * 256 + tag.toNat % 256) * 256 + st.toNat % 256 = _
  rw [htag, hst, Nat.zero_mul, Nat.zero_add]

/-- Work that finishes stores its result in its slot and raises RESULT_READY. -/
theorem finishHeld_unfinished {d : Dev} {tag : BitVec 6} {h : Held} (hs : heldSlot d tag = some h) (hr : h.result = none) :
    finishHeld tag d = (storeResult d tag (workResult d h.work)).emit 0x0162 (tag.toNat * 256 + (workResult d h.work).1.toNat) := by
  simp [finishHeld, hs, hr, packBytes_tag_status, storeResult]

theorem resultReady_runs {s : State} {tag : BitVec 6} {h : Held} (hs : heldSlot s.d tag = some h) (hl : Live s) (hr : h.result = none) :
    Runs (.resultReady tag) s (fun e =>
      e.eu.held = s.d.eu.held.map (fun k => if k.tag = tag then { k with result := some (workResult s.d h.work) } else k)
      ∧ Queued 0x0162 (tag.toNat * 256 + (workResult s.d h.work).1.toNat) e ∧ SameBut [.plane] s.d e) := by
  have hf := finishHeld_unfinished hs hr
  refine .intro (t := happen s (finishHeld tag)) rfl (happen_pending _ _) ⟨?held, ?event, ?frame⟩
  case held =>
    obtain ⟨e, he, hd⟩ := happen_all (finishHeld tag) hl.1
    rw [hd, endCycle_eu_held, he.eu, hf]
    rfl
  case event => exact happen_event hl.1 (hf ▸ emit_mem _ _ _)
  case frame =>
    refine Only.happens hl ?_ (by decide) (hf ▸ (storeResult_only _ _ _).trans ((emit_only _ _ _).mono (by simp)))
    rw [hf]
    exact id

/-- Settles O13: the happening of a held command's end, and FETCH by whether its slot has a result. -/
theorem heldResultsAreFetched : Obligations.HeldResultsAreFetched := by
  refine fun s tag h => ⟨resultReady_runs, fun x b hs hx hb => ⟨fun r hr => ?_, fun hr => ?_⟩⟩
  · rw [exec_fetch hx hs hb, hr]
  · rw [exec_fetch hx hs hb, hr]

/-! ### EVENT_POP (R128, R129, R131) -/

/-- A cycle that queues nothing leaves the order of the queue. -/
theorem mergeEvents_nil (q : List Event) (n : Nat) : mergeEvents q n [] = q := List.take_append_drop n q

/-- The device at the end of EVENT_POP's commit, before its cycle ends: it has replied `r` and takes `k` entries. -/
def popDev (d : Dev) (r : Option Reply) (k : Nat) : Dev := { d with eu := { d.eu with reply := r }, out := { d.out with pop := k } }

/-- The event that reports `n` lost events (R131). -/
def overflowEvent (n : BitVec 16) : Event := { code := 0x160, param := n.setWidth 48 }

theorem exec_eventPop {s : State} {x : Xact} {n : Byte} (hx : Sent x 1 s) (hn : n.toNat ≤ 32) :
    exec (.eventPop x n) s = .next (s.close x s.d
      (popDev s.d (replyOf x s stOk (popPayload n.toNat (s.view x))) (min n.toNat (s.view x).eu.queue.length))) := by
  show execEventPop x n s = _
  rw [execEventPop, sent_runs hx (by decide) rfl hx.viewAlive rfl (by simp [hn]) (by simp [Cmd.plain]) rfl (by simp [Cmd.plain]) rfl]
  rfl

section
variable {d : Dev} {r : Option Reply} {k : Nat} (ho : d.out = Outbox.none)
include ho

theorem popDev_out : (popDev d r k).out = { Outbox.none with pop := k } := by rw [← ho]; rfl

theorem endKept_popDev : endKept d (popDev d r k) = d.eu.queue.drop k := by
  simp [endKept, popDev_out ho, Outbox.none]

theorem endMem_popDev : endMem d (popDev d r k) = d.mem := by
  simp [endMem, popDev_out ho, Outbox.none]

theorem endOverflow_popDev : endOverflow d (popDev d r k) = true ↔ 0 < k ∧ d.eu.queue ≠ [] ∧ d.eu.lost ≠ 0 := by
  simp [endOverflow, popDev_out ho, Outbox.none, List.length_pos_iff, and_assoc]

/-- The event queue is no part of what STATE_SEQ stamps (R117). -/
theorem endSeq_popDev : endSeq d (popDev d r k) = d.eu.stateSeq := by
  have hst : (popDev d r k).stamped = d.stamped := rfl
  simp [endSeq, endChanged, endMem_popDev ho, hst, popDev_out ho, Outbox.none]

theorem endOverflow_popDev_noLoss (h : k = 0 ∨ d.eu.queue = [] ∨ d.eu.lost = 0) : endOverflow d (popDev d r k) = false := by
  rw [Bool.eq_false_iff, Ne, endOverflow_popDev ho]
  rintro ⟨hk, hq, hl⟩
  rcases h with h | h | h
  · exact Nat.ne_of_gt hk h
  · exact hq h
  · exact hl h

/-- Without a loss to report, the entries taken are all that leaves the queue. -/
theorem endQueue_popDev_noLoss (h : k = 0 ∨ d.eu.queue = [] ∨ d.eu.lost = 0) :
    endQueue d (popDev d r k) = (d.eu.queue.drop k, d.eu.lost) := by
  simp [endQueue, endEvents, endKept_popDev ho, endOverflow_popDev_noLoss ho h, popDev_out ho, Outbox.none, sortEvents, pushEvents]

/-- After a loss, a queue of at most 32 entries has space for the report once one is taken. -/
theorem endQueue_popDev_loss (h32 : d.eu.queue.length ≤ 32) (hk : 0 < k) (hq : d.eu.queue ≠ []) (hl : d.eu.lost ≠ 0) :
    endQueue d (popDev d r k) = (d.eu.queue.drop k ++ [overflowEvent d.eu.lost], 0) := by
  have hov : endOverflow d (popDev d r k) = true := (endOverflow_popDev ho).mpr ⟨hk, hq, hl⟩
  have hspace : d.eu.queue.length - k < 32 := by have := List.length_pos_iff.mpr hq; omega
  simp [endQueue, endEvents, endKept_popDev ho, hov, popDev_out ho, Outbox.none, sortEvents, insertEvent, pushEvents, hspace,
    overflowEvent]

/-- The cycle's end of EVENT_POP writes the queue, EVENT_LOST and EVENT_OVERFLOW's record, and nothing else. -/
theorem endCycle_popDev : endCycle d (popDev d r k) = { d with eu := { d.eu with
    reply := r, queue := (endQueue d (popDev d r k)).1, lost := (endQueue d (popDev d r k)).2
    overflowSeen := d.eu.overflowSeen || endOverflow d (popDev d r k) } } := by
  rw [endCycle, endSeq_popDev ho, endMem_popDev ho, ← ho]
  rfl

/-- An EVENT_POP that reports no loss replies and takes its entries, whether or not its commit shares the cycle of a happening. -/
theorem endCommit_popDev_noLoss (z : Option Dev) (h : k = 0 ∨ d.eu.queue = [] ∨ d.eu.lost = 0) :
    endCommit z d (popDev d r k) = { d with eu := { d.eu with reply := r, queue := d.eu.queue.drop k } } := by
  have he : endCycle d (popDev d r k) = { d with eu := { d.eu with reply := r, queue := d.eu.queue.drop k } } := by
    rw [endCycle_popDev ho, endQueue_popDev_noLoss ho h, endOverflow_popDev_noLoss ho h, Bool.or_false]
  cases z with
  | none => exact he
  | some z => simp only [endCommit, he, endKept_popDev ho, List.drop_length, mergeEvents_nil, ite_self]

/-- An EVENT_POP that frees space after a loss, in a cycle of its own. -/
theorem endCycle_popDev_loss (h32 : d.eu.queue.length ≤ 32) (hk : 0 < k) (hq : d.eu.queue ≠ []) (hl : d.eu.lost ≠ 0) :
    endCycle d (popDev d r k) = { d with eu := { d.eu with
      reply := r, queue := d.eu.queue.drop k ++ [overflowEvent d.eu.lost], lost := 0, overflowSeen := true } } := by
  rw [endCycle_popDev ho, endQueue_popDev_loss ho h32 hk hq hl, (endOverflow_popDev ho).mpr ⟨hk, hq, hl⟩, Bool.or_true]

/-- EVENT_POP changes no unit but the management plane. -/
theorem endCommit_popDev_same (z : Option Dev) : SameBut [.plane] d (endCommit z d (popDev d r k)) := by
  intro p hp
  have hpop : p.exact d (popDev d r k) := exact_but_plane hp rfl
  exact Part.same_trans id (Part.same_of_exact (b := popDev d r k) rfl hpop) (endCommit_same p rfl (by rw [popDev_out ho]; rfl))

/-- An EVENT_POP that frees space after a loss: EVENT_OVERFLOW takes its place among the events of the commit's cycle (R127). -/
theorem endCommit_popDev_loss (z : Option Dev) (h32 : d.eu.queue.length ≤ 32) (hk : 0 < k) (hq : d.eu.queue ≠ []) (hl : d.eu.lost ≠ 0) :
    (endCommit z d (popDev d r k)).eu.lost = 0 ∧ (endCommit z d (popDev d r k)).eu.overflowSeen = true
      ∧ (endCommit z d (popDev d r k)).eu.queue.Perm (d.eu.queue.drop k ++ [overflowEvent d.eu.lost]) := by
  have he := endCycle_popDev_loss (r := r) ho h32 hk hq hl
  refine ⟨?lost, ?seen, ?queue⟩
  case lost => rw [endCommit_eu_lost, endQueue_popDev_loss ho h32 hk hq hl]
  case seen =>
    have hseen : (endCommit z d (popDev d r k)).eu.overflowSeen = (endCycle d (popDev d r k)).eu.overflowSeen := by cases z <;> rfl
    rw [hseen, he]
  case queue => exact (endCommit_queue z d _).trans (.of_eq (congrArg (fun e => e.eu.queue) he))

end

/-- Settles O11: `exec_eventPop`, with the end of its commit's cycle by whether a loss is to report. -/
theorem eventPopTakesOldest : Obligations.EventPopTakesOldest := by
  intro s x n hx hn h32
  have ho := hx.quiet
  refine ⟨fun hquiet => ?_, fun hk hq hl => ⟨fun hz => ?_, ?_⟩⟩
  · rw [exec_eventPop hx hn, State.close, endCommit_popDev_noLoss ho _ hquiet]
    rfl
  · rw [exec_eventPop hx hn, State.close, hz, endCommit_alone, endCycle_popDev_loss ho h32 hk hq hl]
    rfl
  · obtain ⟨hlost, hseen, hqueue⟩ := endCommit_popDev_loss (r := replyOf x s stOk (popPayload n.toNat (s.view x))) ho (s.shared x) h32 hk hq hl
    exact .ofDone (exec_eventPop hx hn) ⟨endCommit_eu_reply _ _ _, hlost, hseen, hqueue, endCommit_popDev_same ho _⟩

end Sys2Proof.Stmt
end

section
/-! PROOF. SAVE_NOW (R156): the entry to SAVE of its commit cycle, the herd cut before it (R518, R520), and its refusal while SAVE is
not armed. -/
namespace Sys2Proof.Machine

/-! ### What the work of a cycle leaves of a SAVE and of the herd -/

/-- The work of a cycle leaves the record of a SAVE, but for its progress. -/
theorem CycleAll.sav_record {a b : Dev} (h : CycleAll a b) : b.sav.from_ = a.sav.from_ ∧ b.sav.classes = a.sav.classes
    ∧ b.sav.committed = a.sav.committed ∧ b.sav.abandoned = a.sav.abandoned :=
  ⟨(congrArg Sav.from_ h.sav :), (congrArg Sav.classes h.sav :), (congrArg Sav.committed h.sav :), (congrArg Sav.abandoned h.sav :)⟩

/-- It leaves the herd's step and the count of its steps. -/
theorem CycleAll.herd_step {a b : Dev} (h : CycleAll a b) : b.herd.st = a.herd.st ∧ b.herd.steps = a.herd.steps :=
  ⟨(congrArg Herd.st h.herd :), (congrArg Herd.steps h.herd :)⟩

end Sys2Proof.Machine

namespace Sys2Proof
open Machine

/-! ### The reply through an entry to SAVE

The reply lies in the management plane, of which an entry to SAVE changes the held results alone (R109). -/

theorem Only.reply {l : List Part} {a b : Dev} (h : Only l a b) (hl : Part.plane ∉ l) : b.eu.reply = a.eu.reply :=
  congrArg Eu.reply (h.same .plane hl)

theorem stopHeld_reply (d : Dev) : d.stopHeld.eu.reply = d.eu.reply :=
  have hevents : Only [] _ d.stopHeld := Only.foldl _ (fun e _ => .ite (emit_only e _ _) (.refl [] e)) _ _
  hevents.reply (by decide)

theorem saveStops_reply (d : Dev) : d.saveStops.eu.reply = d.eu.reply := by
  rw [Dev.saveStops, (stopRooster_only _).reply (by decide), stopHeld_reply, (dropRestores_only _).reply (by decide),
    (abandonReads_only _).reply (by decide), (stopScrub_only _).reply (by decide), (chargerOff_only _).reply (by decide),
    (stopTest_only _).reply (by decide), (stopTraining_only _).reply (by decide), (stopPasses_only _).reply (by decide),
    (endYoke_only _).reply (by decide)]

theorem ownCopies_only (d : Dev) : Only [.image] d d.ownCopies := .withImg d _

theorem enterSave_reply (d : Dev) (t : BitVec 3) : (d.enterSave t).eu.reply = d.eu.reply := by
  rw [Dev.enterSave, (preemptEngines_only _ _).reply (by decide), (ownCopies_only _).reply (by decide), saveStops_reply,
    (saveRecord_only d t).reply (by decide)]

/-! ### The cycle in which SAVE is entered -/

/-- No RESTORE ends in the cycle that enters SAVE. -/
theorem enterSave_cycle (d : Dev) (t : BitVec 3) : CycleKeeps (d.enterSave t) (d.enterSave t).everyCycle :=
  everyCycle_keeps (by simp [Dev.restoreEnds, enterSave_ctl])

/-- A parameter of two bytes. -/
theorem packBytes_two {m n : Nat} (hm : m < 256) (hn : n < 256) : packBytes [(1, m), (1, n)] = m * 0x100 + n := by
  show (0 * 256 + m % 256) * 256 + n % 256 = _
  rw [Nat.mod_eq_of_lt hm, Nat.mod_eq_of_lt hn, Nat.zero_mul, Nat.zero_add]

theorem Mode.code_lt (m : Mode) : m.code < 256 := by cases m <;> decide

/-- The parameter of SAVE_ENTERED: the trigger, then the mode it was entered from. -/
theorem packBytes_trigger_mode (t : BitVec 3) (m : Mode) : packBytes [(1, t.toNat), (1, m.code)] = t.toNat * 0x100 + m.code :=
  packBytes_two (Nat.lt_trans t.isLt (by decide)) (Mode.code_lt m)

section
variable (z : Option Dev) (a d : Dev) (t : BitVec 3)

theorem enterSave_commit_reply : (endCommit z a (d.enterSave t).everyCycle).eu.reply = d.eu.reply := by
  rw [endCommit_eu_reply, (enterSave_cycle d t).eu, enterSave_reply]

theorem enterSave_commit_ctl : (endCommit z a (d.enterSave t).everyCycle).ctl
    = { d.ctl with mode := .save, lastTrigger := t, hostPath := false, pathCause := 2, entry := none, entrySwitching := false } := by
  rw [endCommit_ctl, (enterSave_cycle d t).ctl, enterSave_ctl]

/-- The record of the SAVE keeps the mode it was entered from and the save set's classes in force (R538); it has neither committed nor
been abandoned. -/
theorem enterSave_commit_sav : (endCommit z a (d.enterSave t).everyCycle).sav.from_ = d.ctl.mode
    ∧ (endCommit z a (d.enterSave t).everyCycle).sav.classes = d.attrs
    ∧ (endCommit z a (d.enterSave t).everyCycle).sav.committed = false
    ∧ (endCommit z a (d.enterSave t).everyCycle).sav.abandoned = false := by
  obtain ⟨hfrom, hclasses, -, hcommitted, habandoned⟩ := saveRecord_sav d t
  obtain ⟨kfrom, kclasses, kcommitted, kabandoned⟩ := (enterSave_cycle d t).sav_record
  rw [endCommit_sav, kfrom, kclasses, kcommitted, kabandoned, enterSave_sav]
  exact ⟨hfrom, hclasses, hcommitted, habandoned⟩

theorem enterSave_commit_entered : Queued 0x0110 (t.toNat * 0x100 + d.ctl.mode.code) (endCommit z a (d.enterSave t).everyCycle) :=
  commit_event (packBytes_trigger_mode t d.ctl.mode ▸ (enterSave_events d t).1)

theorem enterSave_commit_phase : Queued 0x0114 0 (endCommit z a (d.enterSave t).everyCycle) :=
  commit_event (enterSave_events d t).2

end

/-! ### An own cut cause in an ARMED herd -/

/-- The units that a herd cut into SAVE can change. -/
def cutParts : List Part := [.plane, .mode, .engines, .channels, .image, .rails, .energy, .saving, .restoring, .herd, .rooster, .tasks]

theorem cutSave_only (d : Dev) (own : Bool) (r : Nat) (t : BitVec 3) : Only cutParts d ((d.herdEnterCut own r).enterSave t) :=
  ((herdEnterCut_only d own r).mono (by simp [cutParts])).trans ((enterSave_only _ t).mono (by simp [saveParts, cutParts]))

/-- The herd stays in the step that a cut has taken while SAVE is entered. -/
theorem cutSave_commit_herd (z : Option Dev) (a d : Dev) (own : Bool) (r : Nat) (t : BitVec 3) :
    (endCommit z a ((d.herdEnterCut own r).enterSave t).everyCycle).herd.st = 8
      ∧ (endCommit z a ((d.herdEnterCut own r).enterSave t).everyCycle).herd.steps = d.herd.steps + 1 := by
  have hsave : ((d.herdEnterCut own r).enterSave t).herd = (d.herdEnterCut own r).herd := (enterSave_only _ t).same .herd (by decide)
  obtain ⟨hst, hsteps⟩ := (enterSave_cycle (d.herdEnterCut own r) t).herd_step
  rw [endCommit_herd, hst, hsteps, hsave]
  exact ⟨rfl, rfl⟩

/-- HERD_CUT reports an own cause with its trigger (R518). -/
theorem cutSave_commit_event (z : Option Dev) (a d : Dev) (r : Nat) (t : BitVec 3) :
    Queued 0x0F03 (packBytes [(1, 1), (1, r)]) (endCommit z a ((d.herdEnterCut true r).enterSave t).everyCycle) :=
  commit_event ((enterSave_only _ t).ev.subset (emit_mem _ _ _))

theorem inOR_iff (d : Dev) : inOR d = true ↔ d.ctl.mode = .operate ∨ d.ctl.mode = .restore := by
  simp [inOR, inO, inR]

theorem saveNowWork_unarmedHerd {d : Dev} (h : d.herdArmed = false) : saveNowWork d = d.enterSave 5 := by
  rw [saveNowWork, h, if_neg Bool.false_ne_true]

/-- R46 ranks herd CUT over SAVE_NOW. -/
theorem saveNowWork_armedHerd {d : Dev} (h : d.herdArmed = true) (hm : inOR d = true) (ha : d.ctl.saveArmed = true) :
    saveNowWork d = (d.herdEnterCut true 5).enterSave 4 := by
  have hmode : (d.ctl.mode = .operate ∨ d.ctl.mode = .restore) ∨ d.ctl.mode = .safehold := .inl ((inOR_iff d).mp hm)
  rw [saveNowWork, if_pos h, Dev.herdCut, if_pos (by simpa [ha] using hmode)]
  rfl

end Sys2Proof

namespace Sys2Proof.Stmt
open Sys2Proof.Machine

/-! ### A command's own conditions (Table 4.9 check 9) -/

/-- A check that does not fail leaves the answer to the checks after it. -/
theorem of_check_passed {p : Prop} [Decidable p] {st : Byte} {a b v : Option Byte} (h : (if p then some st else a) = none)
    (hrest : a = none → b = v) : (if p then some st else b) = v := by
  by_cases hp : p
  · rw [if_pos hp] at h
    cases h
  · rw [if_neg hp] at h ⊢
    exact hrest h

/-- Where the eight checks before them pass, the command's own conditions decide. -/
theorem check_cond {c : Cmd} {x : Xact} {d : Dev} (h : { c with cond := fun _ => none }.check x d = none) : c.check x d = c.cond d := by
  unfold Cmd.check at h ⊢
  exact of_check_passed h fun h => of_check_passed h fun h => of_check_passed h fun h => of_check_passed h fun h =>
    of_check_passed h fun h => of_check_passed h fun h => of_check_passed h fun h => of_check_passed h fun _ => rfl

/-- A sent request never fails check 8, so a denial by its conditions is no stale one (R118). -/
theorem sent_not_stale {x : Xact} {n : Nat} {s : State} (h : Sent x n s) (c : Cmd) : c.staleAtReply x (s.view x) = false := by
  obtain ⟨-, -, -, -, -, -, hseq⟩ := h
  have hcur : (x.seq.isSome && x.seq ≠ some (s.view x).eu.stateSeq) = false := by
    cases hx : x.seq with
    | none => rfl
    | some q => simp [(hseq q hx).1]
  rw [Cmd.staleAtReply, hcur, Bool.and_false]

/-- A sent request that its own conditions deny is answered DENIED_STATE with the snapshot's STATE_SEQ, and has no other effect (R97). -/
theorem sent_deniedState {x : Xact} {n : Nat} {s : State} {c : Cmd} (h : Sent x n s) (hn : n ≤ 248) (hlen : c.len n = true)
    (hmodes : c.modes (s.view x) = true) (hlock : c.lock (s.view x) = false) (hvalid : c.valid (s.view x) = true)
    (hq : c.query = true → holds (s.view x) x.tag = false) (hcond : c.cond (s.view x) = some stDeniedState) :
    transact s x c = answered x s stDeniedState [(s.view x).eu.stateSeq] := by
  have hbefore := sent_check (c := { c with cond := fun _ => none }) h hn hlen hmodes hlock hvalid hq rfl
  rw [transact_refused h.portLive ((check_cond hbefore).trans hcond), sent_not_stale h]
  exact close_plane h.quiet rfl rfl rfl

/-! ### SAVE_NOW -/

theorem exec_saveNow {s : State} {x : Xact} (h : Sent x 0 s) (hb : Both x s (fun d => inOR d = true ∧ d.ctl.saveArmed = true))
    (hs : Steady x s) :
    exec (.saveNow x) s = .next (s.close x s.d (saveNowWork (s.d.withReply x (s.view x) stPending [])).everyCycle) := by
  obtain ⟨⟨hmode, harmed⟩, hmodeNow, harmedNow⟩ := hb
  have hact := act_runs (ok := fun d => inOR d && d.ctl.saveArmed) (void := modeVoid 0x13 x) (work := saveNowWork)
    (d := s.d.withReply x (s.view x) stPending []) ((Bool.and_eq_true _ _).mpr ⟨hmodeNow, harmedNow⟩)
  show execSaveNow x s = _
  rw [execSaveNow, sent_runs h (by decide) rfl hmode rfl rfl (by simp [Cmd.mode]) (by simp [Cmd.mode, deny, harmed]) (fun _ => hs) rfl]
  exact congrArg (fun e => Host.Outcome.next (s.close x s.d e)) hact

/-- With SAVE not armed in the snapshot, SAVE_NOW is denied (R22, R156). -/
theorem exec_saveNow_denied {s : State} {x : Xact} (h : Sent x 0 s) (hm : inOR (s.view x) = true)
    (ha : (s.view x).ctl.saveArmed = false) :
    exec (.saveNow x) s = .next (answered x s stDeniedState [(s.view x).eu.stateSeq]) := by
  show execSaveNow x s = _
  rw [execSaveNow, sent_deniedState h (by decide) rfl hm rfl rfl (by simp [Cmd.mode]) (by simp [Cmd.mode, deny, ha])]

/-- What an entry to SAVE of a transaction's commit leaves the same: what its work does, for it ends in SAVE and not in RESTORE. -/
theorem enterSave_commit_same {z : Option Dev} {a d sd : Dev} {x : Xact} {st : Byte} {p : List Word} {l : List Part} {t : BitVec 3}
    (ho : a.out = Outbox.none) (hl : Part.dram ∉ l) (h : Only l (a.withReply x sd st p) (d.enterSave t)) :
    SameBut l a (endCommit z a (d.enterSave t).everyCycle) :=
  Only.commits ho (fun _ => by simp [enterSave_ctl]) hl h

/-- Settles O20: in an unarmed herd SAVE is entered on the device that has replied, in an ARMED herd on the one whose herd has then entered
CUT; not armed, the command's condition denies it. -/
theorem saveNowEntersSave : Obligations.SaveNowEntersSave := by
  refine fun s x h hm => ⟨fun hb hs => ⟨fun hherd => ?plain, fun hherd => ?cut⟩, exec_saveNow_denied h hm⟩
  case plain =>
    have hexec := exec_saveNow h hb hs
    rw [saveNowWork_unarmedHerd (d := s.d.withReply x (s.view x) stPending []) hherd] at hexec
    obtain ⟨hfrom, hclasses, hcommitted, habandoned⟩ := enterSave_commit_sav (s.shared x) s.d (s.d.withReply x (s.view x) stPending []) 5
    exact .ofDone hexec ⟨enterSave_commit_reply _ _ _ _, enterSave_commit_ctl _ _ _ _, hfrom, hclasses, hcommitted, habandoned,
      enterSave_commit_entered _ _ _ _, enterSave_commit_phase _ _ _ _, enterSave_commit_same h.quiet (by decide) (enterSave_only _ _)⟩
  case cut =>
    obtain ⟨hmode, harmed⟩ := hb.2
    have hexec := exec_saveNow h hb hs
    rw [saveNowWork_armedHerd (d := s.d.withReply x (s.view x) stPending []) hherd hmode harmed] at hexec
    obtain ⟨hst, hsteps⟩ := cutSave_commit_herd (s.shared x) s.d (s.d.withReply x (s.view x) stPending []) true 5 4
    exact .ofDone hexec ⟨enterSave_commit_reply _ _ _ _, enterSave_commit_ctl _ _ _ _, hst, hsteps, cutSave_commit_event _ _ _ _ _,
      enterSave_commit_entered _ _ _ _, enterSave_commit_same h.quiet (by decide) (cutSave_only _ _ _ _)⟩

end Sys2Proof.Stmt
end
